-- ==== Sys2Proof/Word.lean ====
section
/-! DEFINITION. The widths of the block's data: a byte (R7), a request word (R58) and a frame word (R53). -/

namespace Sys2Proof

/-- A byte `b[7:0]` (R7). Bit `i` is `b.getLsbD i`, bit 0 the least significant. -/
abbrev Byte := BitVec 8

/-- A request word in format REQ12 (R58): `op` in bits `[11:8]`, `arg` in bits `[7:0]`. -/
abbrev ReqWord := BitVec 12

/-- A frame word F (R53): bit `i` is the frame's slot `i`, slot 0 first on the wire. -/
abbrev FrameWord := BitVec 11

/-- `DATA_BITS` (R5): data bits per frame, a fixed width of the datapath. -/
def dataBits : Nat := 8

/-- `FRAME_BITS` (R5): `1 + DATA_BITS + 1 + 1`, a fixed width of the datapath. -/
def frameBits : Nat := 1 + dataBits + 1 + 1

end Sys2Proof
end

