-- ==== Sys2Proof/Config.lean ====
section
/-! DEFINITION. The implementation parameters of R5, held in State so that every statement ranges over all of them, and
the free values: constants with no body, of which nothing can be proved. -/

namespace Sys2Proof

/-- `IRQ_TRIGGER` (R5, R104): what raises the receive interrupt. -/
inductive IrqTrigger where
  /-- `EDGE_FALL`, the default: the data line was high a microsecond ago and is low now. -/
  | edgeFall
  /-- `LEVEL_LOW`: the data line is low now. -/
  | levelLow
  deriving DecidableEq, Repr

/-- `TIMING_MODE` (R5, R133): how long a `Wait(n)` lasts. -/
inductive TimingMode where
  /-- `EXACT`: exactly `n` microseconds. -/
  | exact
  /-- `AT_LEAST`: some `n' ≥ n`, a draw per wait. -/
  | atLeast
  deriving DecidableEq, Repr

/-- The parameters of R5 (assumption 1). `DATA_BITS` and `FRAME_BITS` are fixed widths (Word.lean), as R5 allows. -/
structure Config where
  /-- `T_SETTLE1`: pulse phase 1, clock released, in microseconds. -/
  tSettle1 : Nat
  /-- `T_HOLD`: pulse phase 2, clock asserted, in microseconds. -/
  tHold : Nat
  /-- `T_SETTLE2`: pulse phase 3, clock released, in microseconds. -/
  tSettle2 : Nat
  /-- `T_RETRY`: the wait after a failed idle check, in microseconds. -/
  tRetry : Nat
  /-- `N_ATTEMPTS`: idle checks before a send is dropped. -/
  nAttempts : Nat
  /-- `PARITY_SEED`: initial value of the running parity. -/
  paritySeed : Bool
  /-- `RESEND_REQ`: the byte sent on a receive parity failure. -/
  resendReq : Byte
  /-- `IRQ_TRIGGER`. -/
  irqTrigger : IrqTrigger
  /-- `TIMING_MODE`. -/
  timingMode : TimingMode
  deriving DecidableEq, Repr

/-- The default column of R5's table; `TIMING_MODE` is `EXACT`, R5's default for simulation (assumption 4). -/
def Config.default : Config where
  tSettle1 := 20
  tHold := 40
  tSettle2 := 20
  tRetry := 1000
  nAttempts := 100
  paritySeed := true
  resendReq := 0xFE
  irqTrigger := .edgeFall
  timingMode := .exact

/-- `T_PULSE` (R5): `T_SETTLE1 + T_HOLD + T_SETTLE2`. -/
def Config.tPulse (c : Config) : Nat := c.tSettle1 + c.tHold + c.tSettle2

/-- FREE VALUE (assumption 5). How much longer than its nominal time the `n`-th wait lasts under `AT_LEAST` (R133: "a draw
per wait"). It has no body: nothing about any of its values can be proved. -/
opaque Config.waitSlack : Nat → Nat

/-- FREE VALUE (assumption 6). `last_sent` after reset (R32: "draw: any 8-bit value"). It has no body. -/
opaque Config.lastSentAtReset : Byte

end Sys2Proof
end

