-- ==== Sys2Proof/Syntax.lean ====
section
/-! DEFINITION. The eight operations a consumer can request (R2, R59), the two fields of a request word (R58), the
assembly spelling of R62, and the data of the machine's two inputs: what the bus host drives and what the consumer does. -/

namespace Sys2Proof

/-- One constructor per row of spec/opcode_table.json. Every operand has exactly the width the row gives it, so every term
is a legal instruction. -/
inductive Instr where
  /-- PULSE (R70): one bus clock pulse. -/
  | pulse
  /-- SETBIT b (R71): drive the data line to `b`, then one clock pulse. -/
  | setbit (b : Bool)
  /-- READBIT (R72): the data line's level. -/
  | readbit
  /-- READLINES (R73): both lines' levels at one instant. -/
  | readlines
  /-- RELDAT (R74): release the data line. -/
  | reldat
  /-- SEND b (R84): send one device-to-host frame. -/
  | send (b : Byte)
  /-- RECV (R90): clock in one host-to-device frame. -/
  | recv
  /-- SETIE e (R98): write the receive-interrupt enable. -/
  | setie (e : Bool)
  deriving DecidableEq, Repr

/-- The two fields of a request word (R58), before any check of their values. -/
structure Request where
  /-- `op`, bits `[11:8]`. -/
  op : BitVec 4
  /-- `arg`, bits `[7:0]`. -/
  arg : Byte
  deriving DecidableEq, Repr

/-- An upper-case hexadecimal digit, for the spelling `0xNN` of R62. -/
def hexDigit (n : Nat) : Char :=
  if n < 10 then Char.ofNat (48 + n) else Char.ofNat (55 + n)

/-- A one-bit operand as R62 spells it. -/
def bitAsm (b : Bool) : String := if b then "1" else "0"

/-- The line of assembly R62 gives for an instruction. -/
def Instr.asm : Instr → String
  | .pulse => "PULSE"
  | .setbit b => "SETBIT " ++ bitAsm b
  | .readbit => "READBIT"
  | .readlines => "READLINES"
  | .reldat => "RELDAT"
  | .send b => "SEND 0x" ++ String.ofList [hexDigit (b.toNat / 16), hexDigit (b.toNat % 16)]
  | .recv => "RECV"
  | .setie e => "SETIE " ++ bitAsm e

/-- One entry of the bus host's drive schedule: from microsecond `time` on, the bus host's drive bits are `clk` and `dat`
(R14), until the next entry. A drive bit of 1 pulls the line low (R8). -/
structure HostDrive where
  /-- The first microsecond at which these drives hold. -/
  time : Nat
  /-- `host_clk_drv` from `time` on. -/
  clk : Bool
  /-- `host_dat_drv` from `time` on. -/
  dat : Bool
  deriving DecidableEq, Repr

/-- What the consumer, one blocking control thread (R27, R114), does next while no operation runs. -/
inductive ConsumerAct where
  /-- Present a request word (R28) and wait until it is refused or its operation ends. -/
  | request (w : ReqWord)
  /-- Read and clear `host_talking` in one atomic action (R20, R47). -/
  | takeFlag
  /-- Read `last_sent`, for a resend (R13, R30). -/
  | readLastSent
  /-- Let `n` microseconds of the consumer's own time pass (S3's wait of about 10 ms; the time before a request, I13). -/
  | delay (n : Nat)
  deriving DecidableEq, Repr

end Sys2Proof
end

