-- ==== Sys2Proof/Machine/State.lean ====
section
/-! DEFINITION. The machine's state (R12), the state after reset (R32, R117), and why a step can stop. -/

namespace Sys2Proof.Machine

/-- Why the machine stops with a fault: never. The block raises no exception and has no trap, and "the system runs
indefinitely; all anomalies are locally absorbed" (R101), so this type has no value. -/
inductive Fault where
  deriving DecidableEq, Repr

/-- Why an instruction has no meaning. No step of this model answers a refusal: a request word the block refuses is
recorded in State and the machine goes on (R60). -/
inductive Refusal where
  /-- Raised by an arm of `exec` whose instruction has no meaning yet; no arm raises it. Safe. -/
  | notModelled (mnemonic : String)
  deriving DecidableEq, Repr

/-- `seq` (R27): the sequencer's position. -/
inductive Seq where
  /-- `IDLE`: no operation runs, and a request is accepted. -/
  | idle
  /-- `RUN(op, k)`: `op` runs, and `k` is the index of its next step (Machine/Microcode.lean). -/
  | run (op : Instr) (k : Nat)
  deriving DecidableEq, Repr

/-- How a SEND ended (R29). -/
inductive SendStatus where
  /-- `SENT`: an idle check succeeded and the frame completed. -/
  | sent
  /-- `DROPPED`: every idle check failed. -/
  | dropped
  deriving DecidableEq, Repr

/-- What an operation returns to the consumer when it ends (R29), for the operations that return something. -/
inductive Result where
  /-- READBIT: the data line's level. -/
  | bit (level : Bool)
  /-- READLINES: the two bits `{clk, dat}`. -/
  | lines (levels : BitVec 2)
  /-- SEND: its status. -/
  | send (st : SendStatus)
  /-- RECV, `RX_OK(v)`. -/
  | rxOk (v : Byte)
  /-- RECV, `RX_PARITY_ERROR`, with the status of the resend request's SEND. -/
  | rxParityError (st : SendStatus)
  deriving DecidableEq, Repr

/-- An output event (R29): `RxByte(v)` at microsecond `time`. -/
structure RxByte where
  /-- The microsecond at which the byte is handed to the consumer. -/
  time : Nat
  /-- The received byte. -/
  value : Byte
  deriving DecidableEq, Repr

/-- What R45 orders and stamps: writes of `clk_drv`, `dat_drv`, `ie`, `busy` and `last_sent` and samples of the lines; and
the consumer's two reads, with what they read. -/
inductive Action where
  /-- `clk_drv <- d`. -/
  | clkDrv (d : Bool)
  /-- `dat_drv <- d`. -/
  | datDrv (d : Bool)
  /-- `Sample(CLK)` returned `level`. -/
  | sampleClk (level : Bool)
  /-- `Sample(DAT)` returned `level`. -/
  | sampleDat (level : Bool)
  /-- `ie <- v`. -/
  | ie (v : Bool)
  /-- `busy <- v`. -/
  | busy (v : Bool)
  /-- `last_sent <- b`. -/
  | lastSent (b : Byte)
  /-- The consumer read `host_talking` as `v` and cleared it. -/
  | tookFlag (v : Bool)
  /-- The consumer read `last_sent` as `b`. -/
  | readLastSent (b : Byte)
  deriving DecidableEq, Repr

/-- An action stamped with the `now` at which it happened (R45). -/
structure Stamped where
  /-- The microsecond. -/
  time : Nat
  /-- What happened. -/
  action : Action
  deriving DecidableEq, Repr

/-- The whole state: R12's table, the parameters (R5), the two inputs (R14, R20, R28), the record of what the block did
(R33, R45), and the model's counter of draws. -/
@[ext]
structure State where
  /-- The parameters of R5; no step changes them. -/
  cfg : Config
  /-- `clk_drv` (R15): 1 pulls the clock line low. -/
  clkDrv : Bool
  /-- `dat_drv` (R15): 1 pulls the data line low. -/
  datDrv : Bool
  /-- `dat_prev` (R35): the data line's level at the previous microsecond. -/
  datPrev : Bool
  /-- `ie` (R18): the receive-interrupt enable. -/
  ie : Bool
  /-- `busy` (R19): the status indicator. -/
  busy : Bool
  /-- `host_talking` (R20). -/
  hostTalking : Bool
  /-- `last_sent` (R21). -/
  lastSent : Byte
  /-- `shreg` (R22): the byte of the current frame. -/
  shreg : Byte
  /-- `par` (R23): the running parity. -/
  par : Bool
  /-- `bitn` (R24): data bits of the current frame sent or sampled, 0 to 8. -/
  bitn : Nat
  /-- `tries` (R25): idle checks the current SEND has made, 0 to `N_ATTEMPTS`. -/
  tries : Nat
  /-- `ok` (R26): RECV's parity verdict. -/
  ok : Bool
  /-- `seq` (R27). -/
  seq : Seq
  /-- `req` (R28): the request word the consumer presents, if it presents one; serving it empties the port (assumption 21). -/
  req : Option ReqWord
  /-- `result` (R29): what the last operation that ended returned; `none` where it returned nothing. -/
  result : Option Result
  /-- The output events (R29), newest first. -/
  events : List RxByte
  /-- The refused request words (R60, R102), newest first; none is ever removed. -/
  refused : List ReqWord
  /-- `now` (R6): microseconds since reset. -/
  now : Nat
  /-- Input: `host_clk_drv(t)` and `host_dat_drv(t)` for every `t` (R14), as a schedule of changes in time order. -/
  host : List HostDrive
  /-- Input: what the consumer does, in its program order (R20, R28, R45). -/
  consumer : List ConsumerAct
  /-- What happened on the block's boundary and when (R45), newest first: the waveform of R33. -/
  trace : List Stamped
  /-- How many draws the waits have made: the model's counter, read by `Config.waitSlack`. -/
  draws : Nat
  deriving DecidableEq, Repr

/-- The state after reset (R32, R117). R32 gives `clk_drv`, `dat_drv`, `dat_prev`, `ie`, `busy`, `host_talking`, `seq` and
`now`, and makes `last_sent` a draw. DESIGN CHOICE (assumptions 7 and 8): the datapath registers are zero, no request,
result, event or refusal is there yet, the bus host releases both lines, and the consumer does nothing. -/
def State.reset : State where
  cfg := Config.default
  clkDrv := false
  datDrv := false
  datPrev := true
  ie := true
  busy := false
  hostTalking := false
  lastSent := Config.lastSentAtReset
  shreg := 0x00
  par := false
  bitn := 0
  tries := 0
  ok := false
  seq := .idle
  req := none
  result := none
  events := []
  refused := []
  now := 0
  host := []
  consumer := []
  trace := []
  draws := 0

end Sys2Proof.Machine
end

