-- ==== Sys2Proof/Machine/Flags.lean ====
section
/-! DEFINITION. The block's flag computations: the running parity (R23, R54), the frame word (R52, R53), the receive
interrupt's trigger (R104), and the outcome codes (R102). -/

namespace Sys2Proof.Machine

/-- The running parity after the first `n` data bits of `b` (R23): it starts at the seed and takes `par XOR bit` for each. -/
def parityAfter (seed : Bool) (b : Byte) : Nat → Bool
  | 0 => seed
  | n + 1 => (parityAfter seed b n).xor (b.getLsbD n)

/-- The parity bit p of a frame carrying `b` (R54): the running parity after the 8 data bits. -/
def frameParity (seed : Bool) (b : Byte) : Bool := parityAfter seed b dataBits

/-- The frame word `F = {1, p, b[7:0], 0}` (R53). -/
def frameWord (seed : Bool) (b : Byte) : FrameWord :=
  BitVec.ofBool true ++ BitVec.ofBool (frameParity seed b) ++ b ++ BitVec.ofBool false

/-- The value of slot `i` of the frame carrying `b` (R52, R53): `F[i]`. -/
def frameSlot (seed : Bool) (b : Byte) (i : Nat) : Bool := (frameWord seed b).getLsbD i

/-- `trig(t)` (R104): `prev` is `dat_prev` and `level` is `dat_line(t)`. -/
def triggered (trigger : IrqTrigger) (prev level : Bool) : Bool :=
  match trigger with
  | .edgeFall => prev && !level
  | .levelLow => !level

/-- The outcome code of a SEND's status (R102). -/
def SendStatus.code : SendStatus → Nat
  | .sent => 0
  | .dropped => 1

/-- The outcome code of a result (R102); READBIT and READLINES return levels, which have no code. -/
def Result.code : Result → Option Nat
  | .bit _ => none
  | .lines _ => none
  | .send st => some st.code
  | .rxOk _ => some 2
  | .rxParityError _ => some 3

/-- The outcome code `REFUSED` (R102), recorded with the request word in `State.refused`. -/
def refusedCode : Nat := 15

end Sys2Proof.Machine
end

