-- ==== Sys2Proof/Machine/Ops.lean ====
section
/-! DEFINITION. The named operations over the state: the bus lines (R14 to R16), the receive interrupt (R104, R108), the
passing of time (R9, R133), drives and samples (R75), and the writes of the registers. The block has no memory (R36). -/

namespace Sys2Proof.Machine

/-- The bus host's drive bits `(clk, dat)` at `t` in a schedule, `cur` being those before its first entry. -/
def hostDrivesFrom (cur : Bool × Bool) : List HostDrive → Nat → Bool × Bool
  | [], _ => cur
  | e :: es, t => if e.time ≤ t then hostDrivesFrom (e.clk, e.dat) es t else cur

/-- `host_clk_drv(t)` (R14). -/
def State.hostClkDrv (s : State) (t : Nat) : Bool := (hostDrivesFrom (false, false) s.host t).1

/-- `host_dat_drv(t)` (R14). -/
def State.hostDatDrv (s : State) (t : Nat) : Bool := (hostDrivesFrom (false, false) s.host t).2

/-- `clk_line(now)` (R16): the wired-AND of the two ends. -/
def State.clkLine (s : State) : Bool := !(s.clkDrv || s.hostClkDrv s.now)

/-- `dat_line(now)` (R16): the wired-AND of the two ends. -/
def State.datLine (s : State) : Bool := !(s.datDrv || s.hostDatDrv s.now)

/-- The bus is idle (R16): both lines are high. -/
def State.busIdle (s : State) : Bool := s.clkLine && s.datLine

/-- The receive interrupt at the end of a microsecond (R104). Its whole effect is `host_talking <- 1` (R108): nothing is
saved, no mode changes, and no handler runs, so there is no return from it (R109). -/
def State.interrupt (s : State) : State :=
  { s with hostTalking := s.hostTalking || (s.ie && triggered s.cfg.irqTrigger s.datPrev s.datLine) }

/-- The end of a microsecond (R35, R104): the interrupt producer evaluates the trigger, then `dat_prev` takes the data
line's level and the next microsecond begins. -/
def State.tick (s : State) : State :=
  { s.interrupt with datPrev := s.datLine, now := s.now + 1 }

/-- `n` microseconds pass with no change of a device drive bit (R9). -/
def State.elapse : Nat → State → State
  | 0, s => s
  | n + 1, s => State.elapse n s.tick

/-- How long a `Wait(n)` lasts when `draw` waits came before it (R133): `n` under `EXACT`, a draw `n' ≥ n` under
`AT_LEAST`. -/
def waitLength (c : Config) (draw n : Nat) : Nat :=
  match c.timingMode with
  | .exact => n
  | .atLeast => n + Config.waitSlack draw

/-- A wait has made its draw; the next wait makes the next one. -/
def State.countDraw (s : State) : State := { s with draws := s.draws + 1 }

/-- `Wait(n)` (R9, R133). -/
def State.wait (n : Nat) (s : State) : State := (s.elapse (waitLength s.cfg s.draws n)).countDraw

/-- Stamp an action with `now` and record it (R45). DESIGN CHOICE (assumption 15): the record is kept in State. -/
def State.record (a : Action) (s : State) : State :=
  { s with trace := ⟨s.now, a⟩ :: s.trace }

/-- `Drive(CLK, d)` (R9, R75). -/
def State.driveClk (d : Bool) (s : State) : State := { s.record (.clkDrv d) with clkDrv := d }

/-- `Drive(DAT, d)` (R9, R75). -/
def State.driveDat (d : Bool) (s : State) : State := { s.record (.datDrv d) with datDrv := d }

/-- `Sample(CLK)` (R9, R16): the value is `clkLine`; the state records that the line was sampled. -/
def State.sampleClk (s : State) : State := s.record (.sampleClk s.clkLine)

/-- `Sample(DAT)` (R9, R16): the value is `datLine`; the state records that the line was sampled. -/
def State.sampleDat (s : State) : State := s.record (.sampleDat s.datLine)

/-- `ie <- v` (R18). -/
def State.writeIe (v : Bool) (s : State) : State := { s.record (.ie v) with ie := v }

/-- `busy <- v` (R19). -/
def State.writeBusy (v : Bool) (s : State) : State := { s.record (.busy v) with busy := v }

/-- `last_sent <- b` (R21). -/
def State.writeLastSent (b : Byte) (s : State) : State := { s.record (.lastSent b) with lastSent := b }

/-- `shreg <- b` (R22). -/
def State.writeShreg (b : Byte) (s : State) : State := { s with shreg := b }

/-- `par <- v` (R23). -/
def State.writePar (v : Bool) (s : State) : State := { s with par := v }

/-- `bitn <- n` (R24). -/
def State.writeBitn (n : Nat) (s : State) : State := { s with bitn := n }

/-- `tries <- n` (R25). -/
def State.writeTries (n : Nat) (s : State) : State := { s with tries := n }

/-- `ok <- v` (R26). -/
def State.writeOk (v : Bool) (s : State) : State := { s with ok := v }

/-- A byte with bit `i` set to `v`: `shreg[i] <- v` (R22). -/
def setBit (b : Byte) (i : Nat) (v : Bool) : Byte :=
  (b &&& ~~~(BitVec.twoPow 8 i)) ||| (if v then BitVec.twoPow 8 i else 0)

/-- `Emit(RxByte(v))` (R9, R29, R91). -/
def State.emit (v : Byte) (s : State) : State := { s with events := ⟨s.now, v⟩ :: s.events }

/-- The sequencer goes on at step `k` of `op` (R27). -/
def State.goto (op : Instr) (k : Nat) (s : State) : State := { s with seq := .run op k }

/-- An operation ends: it returns `r` and `seq <- IDLE` (R27, R29). DESIGN CHOICE (assumption 14): one that returns nothing
leaves `none` at the result port. -/
def State.finish (r : Option Result) (s : State) : State := { s with result := r, seq := .idle }

/-- A SEND ends with `st`: as an operation of its own it returns the status, and inside RECV the status goes into
`RX_PARITY_ERROR` (R29, R92). -/
def State.finishSend (op : Instr) (st : SendStatus) (s : State) : State :=
  match op with
  | .recv => s.finish (some (.rxParityError st))
  | .pulse | .setbit _ | .readbit | .readlines | .reldat | .send _ | .setie _ => s.finish (some (.send st))

/-- A refused request changes nothing and takes no time; the refusal is recorded for the whole run (R60, R102).
DESIGN CHOICE (assumption 12): a word refused under R28 is recorded the same way. -/
def State.refuse (w : ReqWord) (s : State) : State := { s with refused := w :: s.refused }

/-- The request port is served (R28). DESIGN CHOICE (assumption 21): the word leaves the port as it is served, accepted or
refused; R12 names the consumer as the writer of `req`, and no rule says when a presented word is withdrawn. -/
def State.takeRequest (s : State) : State := { s with req := none }

end Sys2Proof.Machine
end

