-- ==== Sys2Proof/Machine/Consumer.lean ====
section
/-! DEFINITION. What the consumer does to the block between operations (R20, R30, R47): its one thread presents requests,
takes the flag, reads `last_sent`, and lets time pass. -/

namespace Sys2Proof.Machine

/-- `host_talking` is read and cleared in one atomic action (R20, R47). DESIGN CHOICE (assumption 18): before the interrupt
producer's evaluation at the end of that microsecond. -/
def State.takeFlag (s : State) : State := { s.record (.tookFlag s.hostTalking) with hostTalking := false }

/-- `last_sent` is read for a resend (R13, R30). -/
def State.readLastSent (s : State) : State := s.record (.readLastSent s.lastSent)

/-- The consumer presents a request word at the request port (R28). -/
def State.present (w : ReqWord) (s : State) : State := { s with req := some w }

/-- One action of the consumer. -/
def actConsumer (a : ConsumerAct) (s : State) : State :=
  match a with
  | .request w => s.present w
  | .takeFlag => s.takeFlag
  | .readLastSent => s.readLastSent
  | .delay n => s.elapse n

/-- The consumer's next action, in its program order (R45); with none left the block sits in `IDLE` for a microsecond
(R116, R117). DESIGN CHOICE (assumption 3): the consumer's actions stand in State as a list. -/
def State.consumerStep (s : State) : State :=
  match s.consumer with
  | [] => s.tick
  | a :: rest => actConsumer a { s with consumer := rest }

end Sys2Proof.Machine
end

