-- ==== Sys2Proof/Decode.lean ====
section
/-! DEFINITION. Decoding of request words, total on all 4096 of them (R61) and rejecting by name (R60), and the encoder
(R59, R62). -/

namespace Sys2Proof

/-- What a request word decodes to (R61): one of the eight operations with a legal operand, or a refusal by name (R60). -/
inductive Decoded where
  /-- A defined operation with a legal operand. -/
  | instr (i : Instr)
  /-- `op` is 0x8 to 0xF. -/
  | reservedOp (op : BitVec 4)
  /-- An `arg` bit the operation does not use is 1. -/
  | strayArg (op : BitVec 4) (arg : Byte)
  deriving DecidableEq, Repr

/-- R58: `op` is bits `[11:8]` and `arg` is bits `[7:0]`. -/
def requestFields (w : ReqWord) : Request where
  op := w.extractLsb' 8 4
  arg := w.extractLsb' 0 8

/-- An operation with no operand: `arg` must be 0x00 (R59). -/
def decodeNoArg (r : Request) (i : Instr) : Decoded :=
  if r.arg.toNat = 0 then .instr i else .strayArg r.op r.arg

/-- An operation with a one-bit operand `arg[0]`: `arg[7:1]` must be 0 (R59). -/
def decodeBitArg (r : Request) (i : Bool → Instr) : Decoded :=
  if r.arg.toNat < 2 then .instr (i (r.arg.getLsbD 0)) else .strayArg r.op r.arg

/-- R59's opcode map. -/
def decodeRequest (r : Request) : Decoded :=
  match r.op.toNat with
  | 0 => decodeNoArg r .pulse
  | 1 => decodeBitArg r .setbit
  | 2 => decodeNoArg r .readbit
  | 3 => decodeNoArg r .readlines
  | 4 => decodeNoArg r .reldat
  | 5 => .instr (.send r.arg)
  | 6 => decodeNoArg r .recv
  | 7 => decodeBitArg r .setie
  | _ => .reservedOp r.op

/-- Decoding of a request word; it depends on the word alone (R61). -/
def decode (w : ReqWord) : Decoded := decodeRequest (requestFields w)

/-- A one-bit operand as an operand byte, `zext_8` (R58). -/
def zextBit (b : Bool) : Byte := (BitVec.ofBool b).setWidth 8

/-- The fields of an instruction's request word (R59). -/
def Instr.request : Instr → Request
  | .pulse => ⟨0x0, 0x00⟩
  | .setbit b => ⟨0x1, zextBit b⟩
  | .readbit => ⟨0x2, 0x00⟩
  | .readlines => ⟨0x3, 0x00⟩
  | .reldat => ⟨0x4, 0x00⟩
  | .send b => ⟨0x5, b⟩
  | .recv => ⟨0x6, 0x00⟩
  | .setie e => ⟨0x7, zextBit e⟩

/-- R62: the encoding of each line is `(op << 8) | arg`. -/
def encodeRequest (r : Request) : ReqWord := r.op ++ r.arg

/-- The request word of an instruction. -/
def encode (i : Instr) : ReqWord := encodeRequest i.request

/-- The instruction a decoding gives, if it gives one. -/
def Decoded.toInstr : Decoded → Option Instr
  | .instr i => some i
  | .reservedOp _ => none
  | .strayArg _ _ => none

/-- The instruction the decoder reads from the word `w` of an opcode-table row. A request is one word of 12 bits and no
byte order arises (R38, R58): the row's width adds nothing, and a number of more than 12 bits is no request word. -/
def decodeTableWord (_nbits w : Nat) : Option Instr :=
  if w < 4096 then (decode (BitVec.ofNat 12 w)).toInstr else none

end Sys2Proof
end

