-- ==== Sys2Proof/Machine/Operands.lean ====
section
/-! DEFINITION. The operand forms of the pseudocode's steps: which bit a SETBIT drives, which byte a SEND sends, which
parameter a wait lasts. No operand is sign-extended and none has an addressing mode (R58, R75). -/

namespace Sys2Proof.Machine

/-- The operand of a SETBIT. -/
inductive BitSrc where
  /-- A constant: SETBIT's own operand, the start bit, the stop bit, the acknowledgement bit. -/
  | lit (b : Bool)
  /-- `shreg[bitn]` (R84). -/
  | data
  /-- `par` (R84). -/
  | parity
  deriving DecidableEq, Repr

/-- The bit an operand stands for. -/
def BitSrc.value (src : BitSrc) (s : State) : Bool :=
  match src with
  | .lit b => b
  | .data => s.shreg.getLsbD s.bitn
  | .parity => s.par

/-- The byte a SEND sends. -/
inductive ByteSrc where
  /-- SEND's own operand. -/
  | lit (b : Byte)
  /-- `RESEND_REQ` (R63, R92). -/
  | resend
  deriving DecidableEq, Repr

/-- The byte an operand stands for. -/
def ByteSrc.value (src : ByteSrc) (s : State) : Byte :=
  match src with
  | .lit b => b
  | .resend => s.cfg.resendReq

/-- The parameter a `Wait` lasts (R5). -/
inductive Delay where
  /-- `T_SETTLE1`. -/
  | settle1
  /-- `T_HOLD`. -/
  | hold
  /-- `T_SETTLE2`. -/
  | settle2
  /-- `T_RETRY`. -/
  | retry
  deriving DecidableEq, Repr

/-- The nominal length of a `Wait`, in microseconds. -/
def Delay.nominal (d : Delay) (c : Config) : Nat :=
  match d with
  | .settle1 => c.tSettle1
  | .hold => c.tHold
  | .settle2 => c.tSettle2
  | .retry => c.tRetry

end Sys2Proof.Machine
end

