-- ==== Sys2Proof/Machine/Microcode.lean ====
section
/-! DEFINITION. The pseudocode of R70 to R74, R84, R90 and R98 as lists of steps: `RUN(op, k)` of R27 is at the `k`-th
entry of `code op`. Each list reads down the page as the rule's pseudocode does. -/

namespace Sys2Proof.Machine

/-- A step of the pseudocode after which the next step in the list follows. -/
inductive Act where
  /-- `Wait(T)`. -/
  | wait (d : Delay)
  /-- `clk_drv <- d`. -/
  | clk (d : Bool)
  /-- `dat_drv <- NOT b`, the first step of SETBIT. -/
  | dat (b : BitSrc)
  /-- `dat_drv <- 0`. -/
  | releaseDat
  /-- `ie <- v`. -/
  | setIe (v : Bool)
  /-- `busy <- v`. -/
  | setBusy (v : Bool)
  /-- `tries <- 0`. -/
  | clearTries
  /-- `last_sent <- b`. -/
  | recordSent (b : ByteSrc)
  /-- `shreg <- b`. -/
  | loadShreg (b : ByteSrc)
  /-- `shreg <- 0x00`. -/
  | clearShreg
  /-- `par <- PARITY_SEED`. -/
  | seedPar
  /-- `bitn <- 0`, the start of `for bitn in 0 .. 7`. -/
  | clearBitn
  /-- `bitn <- bitn + 1`, the end of one round of the loop; DEDUCED (assumption 20): the loop leaves `bitn` = 8. -/
  | nextBitn
  /-- `par <- par XOR shreg[bitn]`. -/
  | xorPar
  /-- RECV's data sample: `s <- Sample(DAT); shreg[bitn] <- s; par <- par XOR s`. -/
  | sampleData
  /-- RECV's parity sample: `q <- Sample(DAT); ok <- (q = par)`. -/
  | sampleParity
  deriving DecidableEq, Repr

/-- What a step does to the state (R9). -/
def Act.apply (a : Act) (s : State) : State :=
  match a with
  | .wait d => s.wait (d.nominal s.cfg)
  | .clk d => s.driveClk d
  | .dat b => s.driveDat (!b.value s)
  | .releaseDat => s.driveDat false
  | .setIe v => s.writeIe v
  | .setBusy v => s.writeBusy v
  | .clearTries => s.writeTries 0
  | .recordSent b => s.writeLastSent (b.value s)
  | .loadShreg b => s.writeShreg (b.value s)
  | .clearShreg => s.writeShreg 0x00
  | .seedPar => s.writePar s.cfg.paritySeed
  | .clearBitn => s.writeBitn 0
  | .nextBitn => s.writeBitn (s.bitn + 1)
  | .xorPar => s.writePar (s.par.xor (s.shreg.getLsbD s.bitn))
  | .sampleData => (s.sampleDat.writeShreg (setBit s.shreg s.bitn s.datLine)).writePar (s.par.xor s.datLine)
  | .sampleParity => s.sampleDat.writeOk (s.datLine == s.par)

/-- A list of steps, one after another. -/
def applyAll (acts : List Act) (s : State) : State := acts.foldl (fun s a => a.apply s) s

/-- A step of an operation: one that goes on with the next, or one that branches or ends the operation. -/
inductive MicroOp where
  /-- A step after which the next follows. -/
  | act (a : Act)
  /-- SEND's idle check (R80, R84): both lines are sampled at one instant and `tries <- tries + 1`; on idle lines the
  frame follows, three steps on, else the retry wait. -/
  | idleCheck
  /-- SEND's `if tries = N_ATTEMPTS` (R82, R84): the byte is dropped, or the idle check two steps back follows. -/
  | retryTest
  /-- SEND's `result <- SENT; return`. -/
  | sent
  /-- RECV's `if ok` (R91, R92): the byte is delivered and RECV ends, or SEND(RESEND_REQ) follows. -/
  | verdict
  /-- READBIT's `result <- Sample(DAT)` (R72). -/
  | readBit
  /-- READLINES' `result <- { Sample(CLK), Sample(DAT) }` (R73). -/
  | readLines
  /-- The end of an operation that returns nothing (R29). -/
  | done
  deriving DecidableEq, Repr

/-- `PULSE()` (R70). -/
def pulseActs : List Act := [.wait .settle1, .clk true, .wait .hold, .clk false, .wait .settle2]

/-- `SETBIT(b)` (R71). -/
def setBitActs (b : BitSrc) : List Act := .dat b :: pulseActs

/-- One round of SEND's loop over the data bits (R84). -/
def sendBitActs : List Act := setBitActs .data ++ [Act.xorPar, Act.nextBitn]

/-- The steps before a SEND's start bit (R84). -/
def frameOpenActs (b : ByteSrc) : List Act :=
  [.setIe false, .setBusy true, .recordSent b, .loadShreg b, .seedPar]

/-- The eight data slots of a SEND: `for bitn in 0 .. 7` (R84). -/
def sendLoopActs : List Act := .clearBitn :: (List.replicate dataBits sendBitActs).flatten

/-- The steps after a frame's last pulse (R84, R90). -/
def frameCloseActs : List Act := [.setIe true, .setBusy false]

/-- The frame of a SEND whose idle check succeeded (R84). -/
def frameActs (b : ByteSrc) : List Act :=
  (frameOpenActs b).append <|
  (setBitActs (.lit false)).append <|
  sendLoopActs.append <|
  (setBitActs .parity).append <|
  (setBitActs (.lit true)).append
  frameCloseActs

/-- SEND's loop over the idle checks (R84). -/
def checkLoopCode : List MicroOp := [.act .clearTries, .idleCheck, .act (.wait .retry), .retryTest]

/-- `SEND(b)` (R84). -/
def sendCode (b : ByteSrc) : List MicroOp :=
  checkLoopCode.append <|
  ((frameActs b).map .act).append
  [.sent]

/-- One round of RECV's loop over the data bits (R90): the sample comes before the pulse. -/
def recvBitActs : List Act := (Act.sampleData :: pulseActs) ++ [Act.nextBitn]

/-- RECV's eight data samples: `for bitn in 0 .. 7` (R90). -/
def recvLoopActs : List Act := .clearBitn :: (List.replicate dataBits recvBitActs).flatten

/-- RECV up to its verdict (R90). -/
def recvActs : List Act :=
  (.setIe false :: .setBusy true :: pulseActs).append <|
  (.clearShreg :: .seedPar :: recvLoopActs).append <|
  (.sampleParity :: pulseActs).append <|
  (setBitActs (.lit false)).append
  (.releaseDat :: frameCloseActs)

/-- `RECV()` (R90 to R92). -/
def recvCode : List MicroOp := (recvActs.map .act).append (.verdict :: sendCode .resend)

/-- The steps of each operation. -/
def code : Instr → List MicroOp
  | .pulse => pulseActs.map .act ++ [.done]
  | .setbit b => (setBitActs (.lit b)).map .act ++ [.done]
  | .readbit => [.readBit]
  | .readlines => [.readLines]
  | .reldat => [.act .releaseDat, .done]
  | .send b => sendCode (.lit b)
  | .recv => recvCode
  | .setie e => [.act (.setIe e), .done]

end Sys2Proof.Machine
end

