-- ==== Sys2Proof/Machine/Sequencer.lean ====
section
/-! DEFINITION. The sequencer (R27): one step of the running operation, an operation run to its end, and the acceptance
of a request (R28). -/

namespace Sys2Proof.Machine

/-- SEND's idle check at step `k` of `op` (R80, R84). -/
def State.idleCheck (op : Instr) (k : Nat) (s : State) : State :=
  ((s.sampleClk.sampleDat).writeTries (s.tries + 1)).goto op (if s.busIdle then k + 3 else k + 1)

/-- SEND's test of the attempt limit at step `k` of `op` (R82, R84). DESIGN CHOICE (assumption 10): at or past the limit. -/
def State.retryTest (op : Instr) (k : Nat) (s : State) : State :=
  if s.cfg.nAttempts ≤ s.tries then s.finishSend op .dropped else s.goto op (k - 2)

/-- RECV's evaluation of its parity verdict at step `k` (R91, R92). -/
def State.verdict (op : Instr) (k : Nat) (s : State) : State :=
  if s.ok then (s.emit s.shreg).finish (some (.rxOk s.shreg)) else s.goto op (k + 1)

/-- The step `m`, at index `k` of `op`. -/
def MicroOp.perform (m : MicroOp) (op : Instr) (k : Nat) (s : State) : State :=
  match m with
  | .act a => (a.apply s).goto op (k + 1)
  | .idleCheck => s.idleCheck op k
  | .retryTest => s.retryTest op k
  | .sent => s.finishSend op .sent
  | .verdict => s.verdict op k
  | .readBit => s.sampleDat.finish (some (.bit s.datLine))
  | .readLines => s.sampleClk.sampleDat.finish (some (.lines (BitVec.ofBool s.clkLine ++ BitVec.ofBool s.datLine)))
  | .done => s.finish none

/-- One step of the running operation (R27). In `IDLE` there is none. DESIGN CHOICE (assumption 13):
past an operation's last step, where no run comes, `seq <- IDLE`. -/
def State.seqStep (s : State) : State :=
  match s.seq with
  | .idle => s
  | .run op k =>
    match (code op)[k]? with
    | some m => m.perform op k s
    | none => { s with seq := .idle }

/-- At most `n` steps of the running operation, up to its end. -/
def State.runSteps : Nat → State → State
  | 0, s => s
  | n + 1, s =>
    match s.seq with
    | .idle => s
    | .run _ _ => State.runSteps n s.seqStep

/-- More steps than any operation makes (R97: every operation ends): three per idle check, and those of the code. -/
def Config.stepBound (c : Config) : Nat := 3 * c.nAttempts + 256

/-- A request for `i` (R27, R28). In `IDLE` it is accepted, and the operation runs to its end; a request presented while
an operation runs is refused. DESIGN CHOICE (assumption 9): the whole operation is one step of the machine. -/
def State.request (i : Instr) (s : State) : Host.Outcome State Fault Refusal :=
  match s.seq with
  | .idle => .next (State.runSteps (Config.stepBound s.cfg) (s.goto i 0))
  | .run _ _ => .next (s.refuse (encode i))

end Sys2Proof.Machine
end

