-- ==== Sys2Proof/Machine/FrameCodec.lean ====
section
/-! DEFINITION. The meanings of the frame codec's operations (R78 to R100), each the run of its own code. -/

namespace Sys2Proof.Machine

/-- SEND b (R79 to R88). -/
def execSend (b : Byte) (s : State) : Host.Outcome State Fault Refusal := s.request (.send b)

/-- RECV (R89 to R95). -/
def execRecv (s : State) : Host.Outcome State Fault Refusal := s.request .recv

/-- SETIE e (R98). -/
def execSetie (e : Bool) (s : State) : Host.Outcome State Fault Refusal := s.request (.setie e)

end Sys2Proof.Machine
end

