-- ==== Sys2Proof/Machine/LineTransport.lean ====
section
/-! DEFINITION. The meanings of the line transport's operations (R68 to R77), each the run of its own code. -/

namespace Sys2Proof.Machine

/-- PULSE (R70). -/
def execPulse (s : State) : Host.Outcome State Fault Refusal := s.request .pulse

/-- SETBIT b (R71). -/
def execSetbit (b : Bool) (s : State) : Host.Outcome State Fault Refusal := s.request (.setbit b)

/-- READBIT (R72). -/
def execReadbit (s : State) : Host.Outcome State Fault Refusal := s.request .readbit

/-- READLINES (R73). -/
def execReadlines (s : State) : Host.Outcome State Fault Refusal := s.request .readlines

/-- RELDAT (R74). -/
def execReldat (s : State) : Host.Outcome State Fault Refusal := s.request .reldat

end Sys2Proof.Machine
end

