-- ==== Sys2Proof/Machine/Dispatch.lean ====
section
/-! DEFINITION. One arm per instruction. -/

namespace Sys2Proof.Machine

def exec (i : Instr) (s : State) : Host.Outcome State Fault Refusal :=
  match i with
  | .pulse => Sys2Proof.Machine.execPulse s
  | .setbit b => Sys2Proof.Machine.execSetbit b s
  | .readbit => Sys2Proof.Machine.execReadbit s
  | .readlines => Sys2Proof.Machine.execReadlines s
  | .reldat => Sys2Proof.Machine.execReldat s
  | .send b => Sys2Proof.Machine.execSend b s
  | .recv => Sys2Proof.Machine.execRecv s
  | .setie e => Sys2Proof.Machine.execSetie e s

end Sys2Proof.Machine
end

