-- ==== Sys2Proof/Machine/Request.lean ====
section
/-! DEFINITION. The request port: how a presented word becomes an instruction or a refusal (R28, R60, R61). -/

namespace Sys2Proof.Machine

/-- The request port is served: a word that decodes is a request for its operation, any other is refused. -/
def serveRequest (w : ReqWord) (s : State) : Host.Outcome State Fault Refusal :=
  match decode w with
  | .instr i => exec i s
  | .reservedOp _ => .next (s.refuse w)
  | .strayArg _ _ => .next (s.refuse w)

end Sys2Proof.Machine
end

