-- ==== Sys2Proof/Machine/Step.lean ====
section
/-! DEFINITION. One step of the machine: the request port is served first, then the running operation, then the consumer. -/

namespace Sys2Proof.Machine

/-- One step. A presented request is served; else a running operation makes its next step; else the consumer acts. -/
def step (s : State) : Host.Outcome State Fault Refusal :=
  match s.req with
  | some w => serveRequest w s.takeRequest
  | none =>
    match s.seq with
    | .run _ _ => .next s.seqStep
    | .idle => .next s.consumerStep

/-- `s` with the request word of `w` presented at the request port of an idle sequencer, where the next step takes its
request. A request is one word of 12 bits, whatever the row's width (assumptions 3 and 19). -/
def State.withFetchWord (s : State) (_nbits w : Nat) : State :=
  { s with req := some (BitVec.ofNat 12 w), seq := .idle }

end Sys2Proof.Machine
end

