-- ==== Sys2Proof/WellFormed.lean ====
section
/-! DEFINITION. Which raw request fields are legal (R60), which parameters make sense (R5), and the canonical form of the
bus host's drive schedule (R14). A term of `Instr` needs no check: its operands have exactly the widths R59 gives them. -/

namespace Sys2Proof

/-- R60: the operation code is one of the eight of R59. -/
def Request.opDefined (r : Request) : Bool := r.op.toNat < 8

/-- R60: every `arg` bit the operation does not use is 0. PULSE, READBIT, READLINES, RELDAT and RECV use none, SETBIT and
SETIE use `arg[0]`, SEND uses all eight. -/
def Request.argClean (r : Request) : Bool :=
  match r.op.toNat with
  | 1 | 7 => r.arg.toNat < 2
  | 5 => true
  | _ => r.arg.toNat = 0

/-- R60: a request that is not refused. -/
def Request.wf (r : Request) : Bool := r.opDefined && r.argClean

/-- The parameters R5 asks for make sense: a SEND makes at least one idle check, and no more than the 7 bits of `tries`
(R25) can count. -/
def Config.wf (c : Config) : Bool := decide (0 < c.nAttempts) && decide (c.nAttempts < 128)

/-- The schedule's canonical form after an entry `prev`: times strictly rising, and every entry changes a drive bit. -/
def hostScheduleWfFrom (prev : HostDrive) : List HostDrive → Bool
  | [] => true
  | e :: es => decide (prev.time < e.time) && (prev.clk != e.clk || prev.dat != e.dat) && hostScheduleWfFrom e es

/-- The schedule's canonical form: before the first entry both drives are released, so equal waveforms are equal lists. -/
def hostScheduleWf : List HostDrive → Bool
  | [] => true
  | e :: es => (e.clk || e.dat) && hostScheduleWfFrom e es

end Sys2Proof
end

