-- ==== Sys2Proof/Safety.lean ====
section
/-! DEFINITION. The terms claims use: line levels over time, the lengths and edges of waits and pulses, what a record of
actions shows, and the invariant of every step. -/

namespace Sys2Proof.Machine

/-! ### Line levels while the device's drives stay as they are -/

/-- `clk_line(t)` (R16) while `clk_drv` stays as it is in `s`. -/
def State.clkLineAt (s : State) (t : Nat) : Bool := !(s.clkDrv || s.hostClkDrv t)

/-- `dat_line(t)` (R16) while `dat_drv` stays as it is in `s`. -/
def State.datLineAt (s : State) (t : Nat) : Bool := !(s.datDrv || s.hostDatDrv t)

/-- The bus is idle at `t` (R16) while both drives stay as they are in `s`. -/
def State.idleAt (s : State) (t : Nat) : Bool := s.clkLineAt t && s.datLineAt t

/-- `dat_prev` at `t` (R35), from `now` on, while `dat_drv` stays as it is in `s`. -/
def State.datPrevAt (s : State) (t : Nat) : Bool := if t ≤ s.now then s.datPrev else s.datLineAt (t - 1)

/-- `trig(t)` (R104), from `now` on, while `dat_drv` stays as it is in `s`. -/
def State.trigAt (s : State) (t : Nat) : Bool := triggered s.cfg.irqTrigger (s.datPrevAt t) (s.datLineAt t)

/-! ### Lengths of waits and pulses, `d` being the number of waits before them -/

/-- How long the pulse whose waits are draws `d`, `d + 1` and `d + 2` lasts (R70). -/
def pulseLength (c : Config) (d : Nat) : Nat :=
  waitLength c d c.tSettle1 + waitLength c (d + 1) c.tHold + waitLength c (d + 2) c.tSettle2

/-- When the `n`-th (from 0) of pulses in a row starts, the first at `t` with draw `d`. -/
def pulseStart (c : Config) (d t : Nat) : Nat → Nat
  | 0 => t
  | n + 1 => pulseStart c d t n + pulseLength c (d + 3 * n)

/-- When SEND makes its idle check `k` (from 0), the first at `t` with draw `d` (R81). -/
def checkTime (c : Config) (d t : Nat) : Nat → Nat
  | 0 => t
  | k + 1 => checkTime c d t k + waitLength c (d + k) c.tRetry

/-! ### What the block records, oldest first -/

/-- The record of one pulse at `t` with draw `d` (R70). -/
def pulseRecord (c : Config) (d t : Nat) : List Stamped :=
  [⟨t + waitLength c d c.tSettle1, .clkDrv true⟩,
   ⟨t + waitLength c d c.tSettle1 + waitLength c (d + 1) c.tHold, .clkDrv false⟩]

/-- The record of one SETBIT `v` at `t` with draw `d` (R71). -/
def setBitRecord (c : Config) (d t : Nat) (v : Bool) : List Stamped :=
  ⟨t, .datDrv (!v)⟩ :: pulseRecord c d t

/-- The record of a frame carrying `b` that starts at `t` with draw `d` (R84): the enable and the indicator change and
`last_sent` is written, slots 0 to 10 are driven one SETBIT each, and the enable and the indicator change back. -/
def frameRecord (c : Config) (d t : Nat) (b : Byte) : List Stamped :=
  [⟨t, .ie false⟩, ⟨t, .busy true⟩, ⟨t, .lastSent b⟩]
    ++ (List.range frameBits).flatMap
        (fun i => setBitRecord c (d + 3 * i) (pulseStart c d t i) (frameSlot c.paritySeed b i))
    ++ [⟨pulseStart c d t frameBits, .ie true⟩, ⟨pulseStart c d t frameBits, .busy false⟩]

/-- The record of the idle check at `t` from drives as in `s` (R80). -/
def checkRecord (s : State) (t : Nat) : List Stamped :=
  [⟨t, .sampleClk (s.clkLineAt t)⟩, ⟨t, .sampleDat (s.datLineAt t)⟩]

/-- The record of SEND's first `n` idle checks, from drives as in `s` (R81). -/
def checksRecord (s : State) (n : Nat) : List Stamped :=
  (List.range n).flatMap (fun k => checkRecord s (checkTime s.cfg s.draws s.now k))

/-- When RECV's pulse `n` (from 0) starts: RECV starts at `now` (R93). -/
def State.recvPulse (s : State) (n : Nat) : Nat := pulseStart s.cfg s.draws s.now n

/-- The byte RECV's data samples give (R90, R93): bit `i` is the data line's level when pulse `i + 1` starts. -/
def State.recvByte (s : State) : Byte :=
  BitVec.ofFnLE (fun i : Fin 8 => s.datLineAt (s.recvPulse (i.val + 1)))

/-- RECV's parity sample (R90, R93): the data line's level when pulse 9 (from 0) starts. -/
def State.recvParityBit (s : State) : Bool := s.datLineAt (s.recvPulse 9)

/-- The record of RECV up to its verdict (R90, R93), RECV starting at `now`. -/
def recvRecord (s : State) : List Stamped :=
  [⟨s.now, .ie false⟩, ⟨s.now, .busy true⟩] ++ pulseRecord s.cfg s.draws s.now
    ++ (List.range 9).flatMap (fun i =>
        ⟨s.recvPulse (i + 1), .sampleDat (s.datLineAt (s.recvPulse (i + 1)))⟩
          :: pulseRecord s.cfg (s.draws + 3 * (i + 1)) (s.recvPulse (i + 1)))
    ++ setBitRecord s.cfg (s.draws + 30) (s.recvPulse 10) false
    ++ [⟨s.recvPulse 11, .datDrv false⟩, ⟨s.recvPulse 11, .ie true⟩, ⟨s.recvPulse 11, .busy false⟩]

/-- An action drives a line. -/
def Action.isDrive : Action → Bool
  | .clkDrv _ => true
  | .datDrv _ => true
  | .sampleClk _ => false
  | .sampleDat _ => false
  | .ie _ => false
  | .busy _ => false
  | .lastSent _ => false
  | .tookFlag _ => false
  | .readLastSent _ => false

/-- The drives of a record, with their times: the device's waveform. -/
def drives (r : List Stamped) : List Stamped := r.filter (fun e => e.action.isDrive)

/-- The levels a record shows the device putting on the data line, in order: the inverse of its drives (R71). -/
def dataDriven (r : List Stamped) : List Bool :=
  r.filterMap (fun e =>
    match e.action with
    | .datDrv d => some (!d)
    | _ => none)

/-- How often a record shows the device asserting the clock. -/
def clockCount (r : List Stamped) : Nat := r.countP (fun e => e.action == .clkDrv true)

/-! ### Request words -/

/-- R60's conditions on a request word: `op` is 0x8 to 0xF, or a bit of `arg` that the operation does not use is 1. -/
def RefusedWord (w : ReqWord) : Prop :=
  8 ≤ w.toNat / 256
    ∨ ((w.toNat / 256 = 0 ∨ w.toNat / 256 = 2 ∨ w.toNat / 256 = 3 ∨ w.toNat / 256 = 4 ∨ w.toNat / 256 = 6)
      ∧ w.toNat % 256 ≠ 0)
    ∨ ((w.toNat / 256 = 1 ∨ w.toNat / 256 = 7) ∧ 2 ≤ w.toNat % 256)

/-! ### The invariant -/

/-- What the steps of an operation up to some point leave, as far as they write it at all. -/
structure Phase where
  /-- `clk_drv`. -/
  clk : Bool
  /-- `busy`. -/
  busy : Bool
  /-- The operation holds `ie` at 0. -/
  masked : Bool
  /-- `bitn`, once a frame's loop has begun. -/
  bitn : Option Nat
  deriving DecidableEq, Repr

/-- Between operations: the clock is released, no frame is active, and `ie` and `bitn` are as they were left. -/
def Phase.between : Phase := ⟨false, false, false, none⟩

/-- The phase after one more step. -/
def Phase.after (p : Phase) (m : MicroOp) : Phase :=
  match m with
  | .act (.clk d) => { p with clk := d }
  | .act (.setBusy v) => { p with busy := v }
  | .act (.setIe v) => { p with masked := !v }
  | .act .clearBitn => { p with bitn := some 0 }
  | .act .nextBitn => { p with bitn := p.bitn.map (· + 1) }
  | _ => p

/-- The phase the sequencer is in. -/
def Seq.phase : Seq → Phase
  | .idle => .between
  | .run op k => ((code op).take k).foldl Phase.after .between

/-- The sequencer is at an idle check of a SEND. -/
def Seq.atIdleCheck : Seq → Bool
  | .idle => false
  | .run op k => (code op)[k]? == some .idleCheck

/-- The sequencer is `IDLE` or at a step of its operation (R27). -/
def Seq.inCode : Seq → Prop
  | .idle => True
  | .run op k => k < (code op).length

/-- Records are in time order, newest first, and none is later than `now` (R45). -/
def traceOrdered (now : Nat) : List Stamped → Prop
  | [] => True
  | e :: es => e.time ≤ now ∧ traceOrdered e.time es

/-- The invariant every step keeps, inside operations and between them. -/
structure Inv (s : State) : Prop where
  /-- The parameters make sense (R5). -/
  cfg : s.cfg.wf = true
  /-- The bus host's schedule is in its canonical form (R14). -/
  host : hostScheduleWf s.host = true
  /-- The sequencer is `IDLE` or at a step of its operation (R27). -/
  seq : s.seq.inCode
  /-- `clk_drv` is 1 only during phase 2 of a clock pulse (R17). -/
  clk : s.clkDrv = s.seq.phase.clk
  /-- `busy` is 1 exactly while a frame is active (R19). -/
  busy : s.busy = s.seq.phase.busy
  /-- `ie` is 0 while a frame is active (R99). -/
  masked : s.seq.phase.masked = true → s.ie = false
  /-- `bitn` counts the frame's data bits (R24). -/
  bitnCount : ∀ n, s.seq.phase.bitn = some n → s.bitn = n
  /-- `bitn` is 0 to 8 and never wraps (R24, R96). -/
  bitn : s.bitn ≤ 8
  /-- `tries` is 0 to `N_ATTEMPTS` and never wraps (R25, R96). -/
  tries : s.tries ≤ s.cfg.nAttempts
  /-- A SEND that makes an idle check has one left (R82). -/
  triesLeft : s.seq.atIdleCheck = true → s.tries < s.cfg.nAttempts
  /-- The record is in time order (R45). -/
  trace : traceOrdered s.now s.trace
  /-- No output event is later than `now` (R29). -/
  events : ∀ e ∈ s.events, e.time ≤ s.now

end Sys2Proof.Machine
end

