-- ==== Sys2Proof/Certificates/Slice0/Obligations.lean ====
section
/-! DEFINITION. The statements for the provers. Each is about every state that meets its hypotheses: every choice of the
parameters, both timing modes, both triggers, every drive of the bus host. Where a statement gives the whole next state it
also gives fields that are the model's own, not the spec's: `trace` (assumption 15), `draws` (assumption 5), `refused`
(assumption 12), `result := none` for an operation that returns nothing (assumption 14), and `bitn := 8` after a frame, the
model's deduction (assumption 20). What one `step` covers is the model's choice too: an accepted operation is one step
(assumption 9), the consumer's listed actions are taken one per step (assumption 3), and a served word leaves the port
(assumption 21). -/

open Sys2Proof Sys2Proof.Machine

/-! ### Encodings -/

/-- Sanity: request words written out from R59 and V33 decode to the operations they stand for, and V33's refused words to
none. -/
def Obligations.WrittenOutWordsDecode : Prop :=
  decode 0b000000000000#12 = .instr .pulse ∧ decode 0b000100000000#12 = .instr (.setbit false)
    ∧ decode 0b000100000001#12 = .instr (.setbit true) ∧ decode 0b001000000000#12 = .instr .readbit
    ∧ decode 0b001100000000#12 = .instr .readlines ∧ decode 0b010000000000#12 = .instr .reldat
    ∧ decode 0b010111111010#12 = .instr (.send 0xFA#8) ∧ decode 0b011000000000#12 = .instr .recv
    ∧ decode 0b011100000000#12 = .instr (.setie false) ∧ decode 0b011100000001#12 = .instr (.setie true)
    ∧ decode 0x001#12 = .strayArg 0x0#4 0x01#8 ∧ decode 0x1FF#12 = .strayArg 0x1#4 0xFF#8
    ∧ decode 0x380#12 = .strayArg 0x3#4 0x80#8 ∧ decode 0x702#12 = .strayArg 0x7#4 0x02#8
    ∧ decode 0x800#12 = .reservedOp 0x8#4 ∧ decode 0xFFF#12 = .reservedOp 0xF#4

/-- R59: the request word of each operation, as the number `op * 256 + arg`. -/
def Obligations.EncodingIsOpThenArg : Prop :=
  (encode .pulse).toNat = 0x000 ∧ (∀ b : Bool, (encode (.setbit b)).toNat = 0x100 + b.toNat)
    ∧ (encode .readbit).toNat = 0x200 ∧ (encode .readlines).toNat = 0x300 ∧ (encode .reldat).toNat = 0x400
    ∧ (∀ b : Byte, (encode (.send b)).toNat = 0x500 + b.toNat) ∧ (encode .recv).toNat = 0x600
    ∧ (∀ e : Bool, (encode (.setie e)).toNat = 0x700 + e.toNat)

/-- Decode and encode agree in both directions: a word decodes to an instruction exactly when it is that instruction's
encoding. So every operand comes back, and no second word has an instruction's meaning. -/
def Obligations.DecodeIsInverseOfEncode : Prop :=
  ∀ (w : ReqWord) (i : Instr), decode w = .instr i ↔ w = encode i

/-- V33's count: of the 4096 request words, 265 are accepted. -/
def Obligations.AcceptedWordCount : Prop :=
  ((List.range 4096).filter (fun n => (decode (BitVec.ofNat 12 n)).toInstr.isSome)).length = 265

/-! ### Steps and requests -/

/-- A step serves a presented word first: if it decodes to `i`, the step is `exec i` on the state whose port is empty. With
no word presented it makes the running operation's next step, and with no operation running the consumer acts, or, when
the consumer has nothing left to do, one microsecond passes. That a whole operation is one step is the model's choice
(assumption 9), and so are the consumer's list of actions, one a step, and the microsecond that passes when none is left
(assumption 3): R27, R28 and R45 give the operations' running and the order of actions, not the grain of a step. That the
served word leaves the port is the model's choice as well (assumption 21). -/
def Obligations.StepRunsDecodedInstruction : Prop :=
  (∀ (s : State) (w : ReqWord) (i : Instr), s.req = some w → decode w = .instr i →
      step s = exec i { s with req := none })
    ∧ (∀ (s : State) (op : Instr) (k : Nat), s.req = none → s.seq = .run op k → step s = .next s.seqStep)
    ∧ (∀ (s : State) (a : ConsumerAct) (rest : List ConsumerAct), s.req = none → s.seq = .idle →
      s.consumer = a :: rest → step s = .next (actConsumer a { s with consumer := rest }))
    ∧ (∀ s : State, s.req = none → s.seq = .idle → s.consumer = [] → step s = .next s.tick)

/-- R60: a word is refused under exactly R60's conditions; a refused request changes nothing but the record of refusals (and
leaves the port), and no step ever removes a recorded refusal. The list of refusals, and that the served word leaves the
port, are the model's choices (assumptions 12 and 21). -/
def Obligations.RefusedRequestChangesNothing : Prop :=
  (∀ (s : State) (w : ReqWord), s.req = some w → RefusedWord w →
      step s = .next { s with req := none, refused := w :: s.refused })
    ∧ (∀ w : ReqWord, ¬ RefusedWord w → ∃ i, decode w = .instr i)
    ∧ (∀ s t : State, step s = .next t → ∃ new, t.refused = new ++ s.refused)

/-- R28: a request is accepted only in `IDLE`, where its operation runs to `IDLE` again; a word presented while an operation
runs is refused, whatever it is, and the running operation is not disturbed. That the whole operation is one step, how
the refusal is recorded, and that the served word leaves the port are the model's choices (assumptions 9, 12 and 21). -/
def Obligations.RequestAcceptedOnlyWhenIdle : Prop :=
  (∀ (s : State) (w : ReqWord) (i : Instr), s.cfg.wf = true → s.req = some w → decode w = .instr i → s.seq = .idle →
      ∃ t, step s = .next t ∧ t.seq = .idle ∧ t.req = none ∧ t.refused = s.refused)
    ∧ (∀ (s : State) (w : ReqWord) (op : Instr) (k : Nat), s.req = some w → s.seq = .run op k →
      step s = .next { s with req := none, refused := w :: s.refused })

/-- R101: there is no exception and no trap. From every state the step, and every instruction, goes on to a next state. -/
def Obligations.NoStepEverStops : Prop :=
  (∀ s : State, ∃ t, step s = .next t) ∧ ∀ (i : Instr) (s : State), ∃ t, exec i s = .next t

/-- R27: the operation a request starts, run one pseudocode step per machine step, comes to the very state in which `exec`
leaves the machine, and that state is `IDLE`. -/
def Obligations.StepwiseRunReachesExec : Prop :=
  ∀ (i : Instr) (s : State), s.cfg.wf = true → s.seq = .idle → s.req = none →
    ∃ (n : Nat) (t : State), exec i s = .next t ∧ t.seq = .idle
      ∧ Host.Core.run Sys2Proof.core n ({ s with seq := .run i 0 } : State) = .next t

/-! ### The receive interrupt and the passing of time -/

/-- R104 with R35 and R108: one microsecond with nothing to do. `host_talking` is set if and only if `ie` is 1 and the
trigger holds, `dat_prev` takes the line's level, and nothing else but `now` changes. That such a step is one microsecond
is the model's choice (assumption 3). -/
def Obligations.MicrosecondEvaluatesInterrupt : Prop :=
  ∀ s : State, s.req = none → s.seq = .idle → s.consumer = [] →
    step s = .next { s with
      hostTalking := s.hostTalking || (s.ie && (match s.cfg.irqTrigger with
        | .edgeFall => s.datPrev && (s.datDrv || s.hostDatDrv s.now)
        | .levelLow => s.datDrv || s.hostDatDrv s.now))
      datPrev := !(s.datDrv || s.hostDatDrv s.now)
      now := s.now + 1 }

/-- R104 over `n` microseconds: events coalesce in the one flag, which is set exactly if the interrupt is enabled and some
microsecond of the span triggers it; only time, `dat_prev` and the flag change. The consumer's delay as a listed action is
the model's choice (assumption 3). -/
def Obligations.ConsumerDelayCoalescesEvents : Prop :=
  ∀ (s : State) (n : Nat) (rest : List ConsumerAct), s.req = none → s.seq = .idle → s.consumer = .delay n :: rest →
    ∃ t, step s = .next t
      ∧ t = { s with consumer := rest, now := s.now + n, datPrev := t.datPrev, hostTalking := t.hostTalking }
      ∧ (0 < n → t.datPrev = s.datLineAt (s.now + n - 1)) ∧ (n = 0 → t.datPrev = s.datPrev)
      ∧ (t.hostTalking = true ↔
        s.hostTalking = true ∨ (s.ie = true ∧ ∃ u, s.now ≤ u ∧ u < s.now + n ∧ s.trigAt u = true))

/-- R20 and R47: the consumer's read-and-clear is one atomic action on the flag, and it is recorded with what was read.
The listed action, its place in the microsecond and the record are the model's choices (assumptions 3, 18 and 15). -/
def Obligations.ConsumerTakesFlagAtomically : Prop :=
  ∀ (s : State) (rest : List ConsumerAct), s.req = none → s.seq = .idle → s.consumer = .takeFlag :: rest →
    step s = .next { s with
      consumer := rest
      hostTalking := false
      trace := ⟨s.now, .tookFlag s.hostTalking⟩ :: s.trace }

/-- R20: no step but the consumer's own read-and-clear ever clears `host_talking`. -/
def Obligations.OnlyConsumerClearsFlag : Prop :=
  ∀ s t : State, step s = .next t → s.hostTalking = true →
    t.hostTalking = true ∨
      (s.req = none ∧ s.seq = .idle ∧ ∃ rest, s.consumer = .takeFlag :: rest)

/-- R98 and R104: an edge that fell while `ie` was 0 is not remembered. SETIE 1 while the data line is already low leaves the
flag alone under `EDGE_FALL` and sets it at the end of that microsecond under `LEVEL_LOW`. -/
def Obligations.SetieDoesNotLookBack : Prop :=
  ∀ s : State, s.seq = .idle → s.req = none → s.consumer = [] → s.datPrev = false → s.datLine = false →
    ∃ t u, exec (.setie true) s = .next t ∧ step t = .next u
      ∧ u.hostTalking = (s.hostTalking || decide (s.cfg.irqTrigger = .levelLow))

/-! ### The line transport -/

/-- R70: PULSE is three phases that last their parameters (exactly, or at least, R133). The clock is asserted for the middle
one only, no other drive changes, time passes as R104 says, and nothing else changes. -/
def Obligations.PulseClocksThreePhases : Prop :=
  ∀ s : State, s.seq = .idle → ∃ w1 w2 w3 : Nat,
    s.cfg.tSettle1 ≤ w1 ∧ s.cfg.tHold ≤ w2 ∧ s.cfg.tSettle2 ≤ w3
      ∧ (s.cfg.timingMode = .exact → w1 = s.cfg.tSettle1 ∧ w2 = s.cfg.tHold ∧ w3 = s.cfg.tSettle2)
      ∧ exec .pulse s = .next { s.elapse (w1 + w2 + w3) with
          clkDrv := false
          result := none
          trace := ⟨s.now + w1 + w2, .clkDrv false⟩ :: ⟨s.now + w1, .clkDrv true⟩ :: s.trace
          draws := s.draws + 3 }

/-- R71: SETBIT b writes `dat_drv <- NOT b` at once and then makes one pulse, with the data line's drive unchanged. -/
def Obligations.SetbitDrivesThenClocks : Prop :=
  ∀ (b : Bool) (s : State), s.seq = .idle → ∃ w1 w2 w3 : Nat,
    s.cfg.tSettle1 ≤ w1 ∧ s.cfg.tHold ≤ w2 ∧ s.cfg.tSettle2 ≤ w3
      ∧ (s.cfg.timingMode = .exact → w1 = s.cfg.tSettle1 ∧ w2 = s.cfg.tHold ∧ w3 = s.cfg.tSettle2)
      ∧ exec (.setbit b) s = .next { ({ s with datDrv := !b } : State).elapse (w1 + w2 + w3) with
          clkDrv := false
          result := none
          trace := ⟨s.now + w1 + w2, .clkDrv false⟩ :: ⟨s.now + w1, .clkDrv true⟩ :: ⟨s.now, .datDrv (!b)⟩ :: s.trace
          draws := s.draws + 3 }

/-- R72: READBIT returns the data line's level, not inverted, takes no time, and writes no other state (the sample is
recorded). -/
def Obligations.ReadbitReturnsDataLevel : Prop :=
  ∀ s : State, s.seq = .idle →
    exec .readbit s = .next { s with
      result := some (.bit (!(s.datDrv || s.hostDatDrv s.now)))
      trace := ⟨s.now, .sampleDat (!(s.datDrv || s.hostDatDrv s.now))⟩ :: s.trace }

/-- R73: READLINES returns both lines' levels at one instant, clock in bit 1 and data in bit 0, takes no time, and writes no
other state. -/
def Obligations.ReadlinesReturnsBothLevels : Prop :=
  ∀ s : State, s.seq = .idle → ∃ v : BitVec 2,
    v.getLsbD 1 = (!(s.clkDrv || s.hostClkDrv s.now)) ∧ v.getLsbD 0 = (!(s.datDrv || s.hostDatDrv s.now))
      ∧ exec .readlines s = .next { s with
          result := some (.lines v)
          trace := ⟨s.now, .sampleDat (v.getLsbD 0)⟩ :: ⟨s.now, .sampleClk (v.getLsbD 1)⟩ :: s.trace }

/-- R74: RELDAT is the word 0x400; it releases the data line at once, with no pulse and no time, and writes nothing else, so
a released drive stays released. The line is high afterwards exactly if the bus host is not pulling it low. The record of
the drive and the empty result are the model's (assumptions 14 and 15). -/
def Obligations.ReldatReleasesData : Prop :=
  encode .reldat = 0x400#12
    ∧ ∀ s : State, s.seq = .idle →
      ∃ t, exec .reldat s = .next t
        ∧ t = { s with
            datDrv := false
            result := none
            trace := ⟨s.now, .datDrv false⟩ :: s.trace }
        ∧ t.datLine = !s.hostDatDrv s.now

/-- R69: no line-transport operation writes `ie`, `busy` or `last_sent`; none writes `host_talking`, which changes only as
the receive interrupt of R104 changes it while the operation's time passes over its data drive; none fails; and none
touches the datapath registers, the events, the refusals or the inputs. -/
def Obligations.LineTransportFrame : Prop :=
  ∀ (i : Instr) (s : State), s.seq = .idle →
    (i = .pulse ∨ (∃ b, i = .setbit b) ∨ i = .readbit ∨ i = .readlines ∨ i = .reldat) →
    ∃ t, exec i s = .next t ∧ t.seq = .idle
      ∧ t.ie = s.ie ∧ t.busy = s.busy ∧ t.lastSent = s.lastSent
      ∧ t.hostTalking = (({ s with datDrv := t.datDrv } : State).elapse (t.now - s.now)).hostTalking
      ∧ (s.ie = false → t.hostTalking = s.hostTalking)
      ∧ t.shreg = s.shreg ∧ t.par = s.par ∧ t.bitn = s.bitn ∧ t.tries = s.tries ∧ t.ok = s.ok
      ∧ t.events = s.events ∧ t.refused = s.refused ∧ t.req = s.req
      ∧ t.cfg = s.cfg ∧ t.host = s.host ∧ t.consumer = s.consumer

/-- R76: a bus host that holds the clock low changes nothing. With the same drives of the data line, PULSE and SETBIT leave
the same state and the same waveform whatever the bus host does to the clock (and the same draws, assumption 5). -/
def Obligations.PulseDoesNotWatchClock : Prop :=
  ∀ (i : Instr) (s : State) (h : List HostDrive), s.seq = .idle → (i = .pulse ∨ ∃ b, i = .setbit b) →
    (∀ u, ({ s with host := h } : State).hostDatDrv u = s.hostDatDrv u) →
    ∃ t, exec i s = .next t ∧ exec i { s with host := h } = .next { t with host := h }

/-- R126: SETBIT 0 issued with `ie` = 1 after a microsecond with the data line high sets `host_talking` through the device's
own drive, under either trigger, if the pulse takes any time at all. -/
def Obligations.SetbitZeroTriggersItself : Prop :=
  ∀ s : State, s.seq = .idle → s.ie = true → s.datPrev = true → 0 < s.cfg.tPulse →
    ∃ t, exec (.setbit false) s = .next t ∧ t.hostTalking = true

/-- R42: RELDAT and SETIE are idempotent. Two in a row leave the state one leaves, but for the record of what was driven. -/
def Obligations.ReldatAndSetieIdempotent : Prop :=
  ∀ (i : Instr) (s : State), s.seq = .idle → (i = .reldat ∨ ∃ e, i = .setie e) →
    ∃ t u, exec i s = .next t ∧ exec i t = .next u ∧ u = { t with trace := u.trace }

/-! ### SETIE, reset and boot -/

/-- R98: SETIE e writes `ie`, takes no time, and writes nothing else. -/
def Obligations.SetieWritesEnable : Prop :=
  ∀ (e : Bool) (s : State), s.seq = .idle →
    exec (.setie e) s = .next { s with
      ie := e
      result := none
      trace := ⟨s.now, .ie e⟩ :: s.trace }

/-- R122: SETIE 1 and then RELDAT put the block in the state of R118 whatever came before, except `last_sent`: the interrupt
is enabled, both lines are released, no frame is active, and no time passes. -/
def Obligations.BootSequenceRestoresIdleBus : Prop :=
  ∀ s : State, Inv s → s.seq = .idle →
    ∃ t u, exec (.setie true) s = .next t ∧ exec .reldat t = .next u
      ∧ u.ie = true ∧ u.datDrv = false ∧ u.clkDrv = false ∧ u.busy = false ∧ u.seq = .idle
      ∧ u.lastSent = s.lastSent ∧ u.hostTalking = s.hostTalking ∧ u.now = s.now

/-- R32 and R117: what R32's table gives for reset, element by element; it makes `last_sent` a draw and gives the datapath
registers no value, so nothing is said of them. -/
def Obligations.ResetLeavesTableValues : Prop :=
  State.reset.clkDrv = false ∧ State.reset.datDrv = false ∧ State.reset.datPrev = true ∧ State.reset.ie = true
    ∧ State.reset.busy = false ∧ State.reset.hostTalking = false ∧ State.reset.seq = .idle ∧ State.reset.now = 0

/-- R102: the outcome codes. -/
def Obligations.OutcomeCodesAsNumbered : Prop :=
  (Result.send .sent).code = some 0 ∧ (Result.send .dropped).code = some 1
    ∧ (∀ v, (Result.rxOk v).code = some 2) ∧ (∀ st, (Result.rxParityError st).code = some 3) ∧ refusedCode = 15

/-! ### Frames -/

/-- R52 to R54, with the parity seed 1: start 0, the data bits least significant first, the parity bit, stop 1; the frame
word as a number; and the nine bits hold an odd number of ones. -/
def Obligations.FrameWordLayout : Prop :=
  ∀ b : Byte,
    frameSlot true b 0 = false ∧ (∀ i < 8, frameSlot true b (i + 1) = b.getLsbD i)
      ∧ frameSlot true b 9 = (true ^^ b.getLsbD 0 ^^ b.getLsbD 1 ^^ b.getLsbD 2 ^^ b.getLsbD 3 ^^ b.getLsbD 4
          ^^ b.getLsbD 5 ^^ b.getLsbD 6 ^^ b.getLsbD 7)
      ∧ frameSlot true b 10 = true
      ∧ (frameWord true b).toNat = 0x400 + (frameParity true b).toNat * 512 + b.toNat * 2
      ∧ ((List.range 9).countP (fun i => frameSlot true b (i + 1))) % 2 = 1

/-! ### SEND -/

/-- R84 and R85 (with R80, R81): SEND whose idle check `j` is the first to find the bus idle sends the frame. `T` is the time
of that check. The statement gives every field: what SEND writes, the times, the record of every check, drive and write,
and that nothing else changes. The interrupt can only have set `host_talking` before `T`. `dat_prev` is the data line's
level a microsecond before the end, when the device has released it. `bitn := 8` is the model's deduction (assumption 20:
R84 says `for bitn in 0 .. 7`, R24 counts 0 to 8); `trace` and `draws` are the model's (assumptions 15 and 5). -/
def Obligations.SendCompletesFrame : Prop :=
  ∀ (b : Byte) (s : State) (j : Nat), s.seq = .idle → j < s.cfg.nAttempts →
    (∀ k < j, s.idleAt (checkTime s.cfg s.draws s.now k) = false) →
    s.idleAt (checkTime s.cfg s.draws s.now j) = true →
    ∃ t T, T = checkTime s.cfg s.draws s.now j ∧ exec (.send b) s = .next t
      ∧ t = { s with
          clkDrv := false
          datDrv := false
          datPrev := t.datPrev
          ie := true
          busy := false
          hostTalking := (s.elapse (T - s.now)).hostTalking
          lastSent := b
          shreg := b
          par := frameParity s.cfg.paritySeed b
          bitn := 8
          tries := j + 1
          result := some (.send .sent)
          now := pulseStart s.cfg (s.draws + j) T 11
          trace := (frameRecord s.cfg (s.draws + j) T b).reverse ++ (checksRecord s (j + 1)).reverse ++ s.trace
          draws := s.draws + j + 33 }
      ∧ (0 < s.cfg.tPulse → t.datPrev = !s.hostDatDrv (t.now - 1))

/-- R82 and R83: SEND that never finds the bus idle makes `N_ATTEMPTS` checks, each followed by its wait, and drops the byte:
`ie`, `busy`, `last_sent` and the drives are as they were, no pulse is made, and only `tries`, the status, and what the
passing of time changes are written (R85). The record, with the clock's sample before the data's, and the counter of draws
are the model's (assumptions 15 and 5). -/
def Obligations.SendDropsOnBusyBus : Prop :=
  ∀ (b : Byte) (s : State), s.seq = .idle → 0 < s.cfg.nAttempts →
    (∀ k < s.cfg.nAttempts, s.idleAt (checkTime s.cfg s.draws s.now k) = false) →
    ∃ w, s.cfg.nAttempts * s.cfg.tRetry ≤ w
      ∧ (s.cfg.timingMode = .exact → w = s.cfg.nAttempts * s.cfg.tRetry)
      ∧ exec (.send b) s = .next { s.elapse w with
          tries := s.cfg.nAttempts
          result := some (.send .dropped)
          trace := (checksRecord s s.cfg.nAttempts).reverse ++ s.trace
          draws := s.draws + s.cfg.nAttempts }

/-- R100: whatever the bus host does, a SEND that is not dropped puts exactly these eleven values on the data line, in this
order, one clock assertion each: 0, the bits of the byte least significant first, the odd parity, 1. While the device
drives a value `d`, the line carries it where the bus host is not pulling the line low, and is low where it is. The record
the statement reads the drives from is the model's (assumption 15). -/
def Obligations.SendDrivesElevenSlots : Prop :=
  (∀ (b : Byte) (s t : State), s.seq = .idle → s.cfg.wf = true → s.cfg.paritySeed = true →
    exec (.send b) s = .next t → t.result ≠ some (.send .dropped) →
    ∃ new, t.trace = new.reverse ++ s.trace
      ∧ dataDriven new = [false, b.getLsbD 0, b.getLsbD 1, b.getLsbD 2, b.getLsbD 3, b.getLsbD 4, b.getLsbD 5,
          b.getLsbD 6, b.getLsbD 7,
          true ^^ b.getLsbD 0 ^^ b.getLsbD 1 ^^ b.getLsbD 2 ^^ b.getLsbD 3 ^^ b.getLsbD 4 ^^ b.getLsbD 5
            ^^ b.getLsbD 6 ^^ b.getLsbD 7,
          true]
      ∧ clockCount new = 11)
    ∧ ∀ (s : State) (d : Bool), ({ s with datDrv := !d } : State).datLine = (d && !s.hostDatDrv s.now)

/-- R86, under `EXACT`: check `k` is at `t0 + k * T_RETRY`; with the first idle bus at check `j` the frame starts at
`T = t0 + j * T_RETRY`, slot `i` is driven at `T + i * T_PULSE` and its clock asserted `T_SETTLE1` later for `T_HOLD`, and
the frame ends at `T + 11 * T_PULSE`. The device makes no other drive. -/
def Obligations.SendSlotTimesExact : Prop :=
  ∀ (b : Byte) (s : State) (j T : Nat), s.seq = .idle → s.cfg.timingMode = .exact → j < s.cfg.nAttempts →
    (∀ k < j, s.idleAt (s.now + k * s.cfg.tRetry) = false) → T = s.now + j * s.cfg.tRetry → s.idleAt T = true →
    ∃ t new, exec (.send b) s = .next t ∧ t.trace = new.reverse ++ s.trace ∧ t.now = T + 11 * s.cfg.tPulse
      ∧ drives new = (List.range 11).flatMap (fun i =>
          [⟨T + i * s.cfg.tPulse, .datDrv (!frameSlot s.cfg.paritySeed b i)⟩,
           ⟨T + i * s.cfg.tPulse + s.cfg.tSettle1, .clkDrv true⟩,
           ⟨T + i * s.cfg.tPulse + s.cfg.tSettle1 + s.cfg.tHold, .clkDrv false⟩])

/-- R41: once SEND has passed its idle check, nothing the bus host does changes what the device does. Two runs from states
that differ only in the bus host's drives, and find the bus idle at the start, leave states that differ only in those
drives and in the data line's last level (the waits make the same draws in both, assumption 5). -/
def Obligations.SendFrameIgnoresBusHost : Prop :=
  ∀ (b : Byte) (s : State) (h : List HostDrive), s.seq = .idle → 0 < s.cfg.nAttempts →
    s.idleAt s.now = true → ({ s with host := h } : State).idleAt s.now = true →
    ∃ t u, exec (.send b) s = .next t ∧ exec (.send b) { s with host := h } = .next u
      ∧ u = { t with host := h, datPrev := u.datPrev }

/-- R131: two SENDs in a row leave no gap. If the bus is idle at the start and the bus host holds neither line when the first
frame ends, the second frame starts at that very microsecond. -/
def Obligations.BackToBackFramesLeaveNoGap : Prop :=
  ∀ (b c : Byte) (s : State), s.seq = .idle → 0 < s.cfg.nAttempts → s.idleAt s.now = true →
    s.hostClkDrv (pulseStart s.cfg s.draws s.now 11) = false →
    s.hostDatDrv (pulseStart s.cfg s.draws s.now 11) = false →
    ∃ t u, exec (.send b) s = .next t ∧ exec (.send c) t = .next u
      ∧ t.result = some (.send .sent) ∧ u.result = some (.send .sent) ∧ u.lastSent = c
      ∧ t.now = pulseStart s.cfg s.draws s.now 11 ∧ u.now = pulseStart s.cfg (s.draws + 33) t.now 11
      ∧ u.tries = 1

/-- R127: a bus host that pulls the data line low at a SEND's start and holds it makes the byte drop, and the receive
interrupt, still enabled in the waits, sets `host_talking`. -/
def Obligations.HeldDataLineDropsByteAndSetsFlag : Prop :=
  ∀ (b : Byte) (s : State), s.seq = .idle → 0 < s.cfg.nAttempts → 0 < s.cfg.tRetry → s.ie = true → s.datPrev = true →
    (∀ u, s.now ≤ u → s.hostDatDrv u = true) →
    ∃ t, exec (.send b) s = .next t ∧ t.result = some (.send .dropped) ∧ t.hostTalking = true
      ∧ t.lastSent = s.lastSent ∧ t.ie = true ∧ t.busy = s.busy ∧ drives t.trace = drives s.trace

/-- R97: every SEND and every RECV ends, in `IDLE`, with one of its results; under `EXACT` SEND ends after at most
`N_ATTEMPTS * T_RETRY + 11 * T_PULSE`, and RECV after at most `11 * T_PULSE` more than that. -/
def Obligations.SendAndRecvAlwaysEnd : Prop :=
  (∀ (b : Byte) (s : State), s.seq = .idle → s.cfg.wf = true →
      ∃ t, exec (.send b) s = .next t ∧ t.seq = .idle ∧ (∃ st, t.result = some (.send st))
        ∧ (s.cfg.timingMode = .exact → t.now ≤ s.now + s.cfg.nAttempts * s.cfg.tRetry + 11 * s.cfg.tPulse))
    ∧ (∀ s : State, s.seq = .idle → s.cfg.wf = true →
      ∃ t, exec .recv s = .next t ∧ t.seq = .idle
        ∧ ((∃ v, t.result = some (.rxOk v)) ∨ ∃ st, t.result = some (.rxParityError st))
        ∧ (s.cfg.timingMode = .exact → t.now ≤ s.now + s.cfg.nAttempts * s.cfg.tRetry + 22 * s.cfg.tPulse))

/-! ### RECV -/

/-- R90 and R91: RECV whose parity sample matches delivers the byte. The byte's bit `i` is the data line's level when pulse
`i + 2` starts, and the parity sample its level when pulse 10 starts. The statement gives every field; in particular
`last_sent`, `tries` and `host_talking` do not change, and the event and the end are at the time of the release. `bitn := 8`
is the model's deduction (assumption 20: R90 says `for bitn in 0 .. 7`, R24 counts 0 to 8); `trace` and `draws` are the
model's (assumptions 15 and 5). -/
def Obligations.RecvDeliversByte : Prop :=
  ∀ s : State, s.seq = .idle → s.cfg.wf = true →
    s.recvParityBit = frameParity s.cfg.paritySeed s.recvByte →
    ∃ t, exec .recv s = .next t
      ∧ t = { s with
          clkDrv := false
          datDrv := false
          datPrev := t.datPrev
          ie := true
          busy := false
          shreg := s.recvByte
          par := frameParity s.cfg.paritySeed s.recvByte
          bitn := 8
          ok := true
          result := some (.rxOk s.recvByte)
          events := ⟨s.recvPulse 11, s.recvByte⟩ :: s.events
          now := s.recvPulse 11
          trace := (recvRecord s).reverse ++ s.trace
          draws := s.draws + 33 }
      ∧ (0 < s.cfg.tPulse → t.datPrev = false)

/-- R92: RECV whose parity sample does not match emits no event and runs SEND(`RESEND_REQ`) in full at once, from the state
`u` in which the data line is released, `ie` is 1 again and `busy` is 0; it ends as that SEND ends, with the result
`RX_PARITY_ERROR` carrying that SEND's status, and if the request was sent `last_sent` is `RESEND_REQ`. In `u`,
`bitn := 8` is the model's deduction (assumption 20), and `trace` and `draws` are the model's (assumptions 15 and 5). -/
def Obligations.RecvParityFailureSendsResend : Prop :=
  ∀ s : State, s.seq = .idle → s.cfg.wf = true →
    s.recvParityBit ≠ frameParity s.cfg.paritySeed s.recvByte →
    ∃ u v st, u = { s with
          clkDrv := false
          datDrv := false
          datPrev := u.datPrev
          ie := true
          busy := false
          shreg := s.recvByte
          par := frameParity s.cfg.paritySeed s.recvByte
          bitn := 8
          ok := false
          now := s.recvPulse 11
          trace := (recvRecord s).reverse ++ s.trace
          draws := s.draws + 33 }
      ∧ (0 < s.cfg.tPulse → u.datPrev = false)
      ∧ exec (.send s.cfg.resendReq) u = .next v ∧ v.result = some (.send st) ∧ v.events = s.events
      ∧ (st = .sent → v.lastSent = s.cfg.resendReq)
      ∧ exec .recv s = .next { v with result := some (.rxParityError st) }

/-- R130: after a parity failure whose resend request found the bus idle at once, `last_sent` is `RESEND_REQ` and the result
says the request was sent. -/
def Obligations.ParityFailureLeavesResendAsLastSent : Prop :=
  ∀ s : State, s.seq = .idle → s.cfg.wf = true →
    s.recvParityBit ≠ frameParity s.cfg.paritySeed s.recvByte →
    s.hostClkDrv (s.recvPulse 11) = false → s.hostDatDrv (s.recvPulse 11) = false →
    ∃ t, exec .recv s = .next t ∧ t.result = some (.rxParityError .sent) ∧ t.lastSent = s.cfg.resendReq
      ∧ t.events = s.events ∧ t.ie = true ∧ t.busy = false ∧ t.hostTalking = s.hostTalking

/-- R129: a RECV with no bus host activity, the data line released, delivers 0xFF. -/
def Obligations.SpuriousRecvDeliversFF : Prop :=
  ∀ s : State, s.seq = .idle → s.cfg.wf = true → s.cfg.paritySeed = true → s.datDrv = false →
    (∀ u, s.hostDatDrv u = false) →
    ∃ t, exec .recv s = .next t ∧ t.result = some (.rxOk 0xFF#8) ∧ t.events = ⟨t.now, 0xFF#8⟩ :: s.events

/-- R94 and R56: RECV looks at the data line at its nine sample instants only, and never at the clock. Two runs that differ
only in the bus host's drives and agree on the data line at those instants end alike if the parity passes: the start and
the stop slot are not looked at. (The waits make the same draws in both, assumption 5.) -/
def Obligations.RecvLooksAtNineInstantsOnly : Prop :=
  ∀ (s : State) (h : List HostDrive), s.seq = .idle → s.cfg.wf = true →
    s.recvParityBit = frameParity s.cfg.paritySeed s.recvByte →
    (∀ n, 1 ≤ n → n ≤ 9 → ({ s with host := h } : State).hostDatDrv (s.recvPulse n) = s.hostDatDrv (s.recvPulse n)) →
    ∃ t u, exec .recv s = .next t ∧ exec .recv { s with host := h } = .next u
      ∧ u = { t with host := h, datPrev := u.datPrev }

/-- R93, under `EXACT`: the samples are at `R + (i + 1) * T_PULSE` (data bit `i`) and `R + 9 * T_PULSE` (parity); pulse `n`
(from 0) asserts the clock on its own phase; the acknowledgement is driven at `R + 10 * T_PULSE`; and the release and, if
the parity passes, the end are at `R + 11 * T_PULSE`. The device makes no other drive. -/
def Obligations.RecvTimesExact : Prop :=
  ∀ s : State, s.seq = .idle → s.cfg.wf = true → s.cfg.timingMode = .exact →
    (∀ i < 8, s.recvByte.getLsbD i = s.datLineAt (s.now + (i + 1) * s.cfg.tPulse))
      ∧ s.recvParityBit = s.datLineAt (s.now + 9 * s.cfg.tPulse)
      ∧ (s.recvParityBit = frameParity s.cfg.paritySeed s.recvByte →
        ∃ t new, exec .recv s = .next t ∧ t.trace = new.reverse ++ s.trace ∧ t.now = s.now + 11 * s.cfg.tPulse
          ∧ drives new =
            (List.range 10).flatMap (fun n =>
              [⟨s.now + n * s.cfg.tPulse + s.cfg.tSettle1, .clkDrv true⟩,
               ⟨s.now + n * s.cfg.tPulse + s.cfg.tSettle1 + s.cfg.tHold, .clkDrv false⟩])
            ++ [⟨s.now + 10 * s.cfg.tPulse, .datDrv true⟩,
                ⟨s.now + 10 * s.cfg.tPulse + s.cfg.tSettle1, .clkDrv true⟩,
                ⟨s.now + 10 * s.cfg.tPulse + s.cfg.tSettle1 + s.cfg.tHold, .clkDrv false⟩,
                ⟨s.now + 11 * s.cfg.tPulse, .datDrv false⟩])

/-! ### The whole machine -/

/-- R31 and R30 over all instructions: only SEND, RECV and SETIE change `ie`, only SEND and RECV `busy`, only SEND and RECV
`last_sent` (SEND to its operand, RECV to `RESEND_REQ`), only RECV `ok` and the events, and none the parameters, the
inputs or the consumer's requests. -/
def Obligations.OnlyTheirOperationsWriteRegisters : Prop :=
  ∀ (i : Instr) (s t : State), s.cfg.wf = true → exec i s = .next t →
    (t.ie ≠ s.ie → (∃ b, i = .send b) ∨ i = .recv ∨ ∃ e, i = .setie e)
      ∧ (t.busy ≠ s.busy → (∃ b, i = .send b) ∨ i = .recv)
      ∧ (t.lastSent ≠ s.lastSent → i = .send t.lastSent ∨ (i = .recv ∧ t.lastSent = s.cfg.resendReq))
      ∧ (t.ok ≠ s.ok → i = .recv) ∧ (t.events ≠ s.events → i = .recv)
      ∧ t.cfg = s.cfg ∧ t.host = s.host ∧ t.consumer = s.consumer ∧ t.req = s.req

/-- R12, R14 and R45: no step changes the parameters or the bus host's drives, the consumer's actions are taken in their
order, time never runs back, and what was recorded and delivered stays. -/
def Obligations.StepKeepsInputsAndHistory : Prop :=
  ∀ s t : State, step s = .next t →
    t.cfg = s.cfg ∧ t.host = s.host ∧ (∃ done, s.consumer = done ++ t.consumer) ∧ s.now ≤ t.now
      ∧ (∃ new, t.trace = new ++ s.trace) ∧ (∃ new, t.events = new ++ s.events)

/-- The invariant holds after reset. -/
def Obligations.ResetMeetsInvariant : Prop := Inv State.reset

/-- Every step, inside an operation or between two, keeps the invariant: the clock is asserted only in phase 2 of a pulse
(R17), `busy` is 1 exactly while a frame is active (R19), `ie` is 0 all that time (R99), `bitn` and `tries` count in their
ranges and never wrap (R24, R25, R96), the sequencer stays in its operation's code (R27), and the record stays in time
order (R45). -/
def Obligations.EveryStepKeepsInvariant : Prop :=
  ∀ s t : State, Inv s → step s = .next t → Inv t
end

