-- ==== Sys2Proof/Laws/Code.lean ====
section
/-! SUPPORT. Facts about the operations' code that the invariant rests on (R17, R19, R24, R82): what stands after a step,
and in which phase the steps that end or branch stand. -/

namespace Sys2Proof.Machine

/-- The clock is released and no frame is active. -/
def Phase.quiet (p : Phase) : Bool := !p.clk && !p.busy

/-- The phase has counted fewer than 8 data bits. -/
def Phase.roomForBit (p : Phase) : Bool :=
  match p.bitn with
  | some n => decide (n < 8)
  | none => false

/-- What the invariant needs of step `k` of `op`. A straight-line step is not the last one, counts a bit only where there is
room, and comes before an idle check only where it clears `tries`. An idle check has its wait and its test behind it and
its frame after them, all in one phase. The steps that end an operation stand between frames. -/
def stepOk (op : Instr) (k : Nat) : Bool :=
  match (code op)[k]? with
  | none => true
  | some (.act a) =>
    decide (k + 1 < (code op).length)
      && (a != .nextBitn || (Seq.run op k).phase.roomForBit)
      && ((code op)[k + 1]? != some .idleCheck || a == .clearTries)
  | some .idleCheck =>
    decide (k + 3 < (code op).length) && (code op)[k + 1]? != some .idleCheck && (code op)[k + 3]? != some .idleCheck
      && (Seq.run op (k + 3)).phase == (Seq.run op k).phase
  | some .retryTest =>
    decide (2 ≤ k) && (code op)[k - 2]? == some .idleCheck && (Seq.run op k).phase.quiet
      && (Seq.run op (k - 2)).phase == (Seq.run op k).phase
  | some .verdict =>
    (Seq.run op k).phase.quiet && decide (k + 1 < (code op).length) && (code op)[k + 1]? != some .idleCheck
  | some .sent => (Seq.run op k).phase.quiet
  | some .readBit => (Seq.run op k).phase.quiet
  | some .readLines => (Seq.run op k).phase.quiet
  | some .done => (Seq.run op k).phase.quiet

/-- Every step of an operation is as the invariant needs it. -/
def codeOk (op : Instr) : Bool := (List.range (code op).length).all (stepOk op)

theorem codeOk_send (b : Byte) : codeOk (.send b) = true := by
  unfold codeOk
  rfl

theorem codeOk_all (op : Instr) : codeOk op = true := by
  cases op with
  | pulse => decide +kernel
  | setbit b => revert b; decide +kernel
  | readbit => decide +kernel
  | readlines => decide +kernel
  | reldat => decide +kernel
  | send b => exact codeOk_send b
  | recv => decide +kernel
  | setie e => revert e; decide +kernel

theorem stepOk_all (op : Instr) {k : Nat} (h : k < (code op).length) : stepOk op k = true :=
  List.all_eq_true.mp (codeOk_all op) k (List.mem_range.mpr h)

/-- The phase one step on. -/
theorem phase_succ {op : Instr} {k : Nat} {m : MicroOp} (h : (code op)[k]? = some m) :
    (Seq.run op (k + 1)).phase = (Seq.run op k).phase.after m := by
  simp only [Seq.phase, List.take_add_one, h, Option.toList_some, List.foldl_append, List.foldl_cons, List.foldl_nil]

/-- Every operation has a first step, and it is no idle check. -/
theorem code_start (op : Instr) : 0 < (code op).length ∧ (code op)[0]? ≠ some .idleCheck := by
  have key : ∀ {l : List MicroOp} {m : MicroOp} {rest : List MicroOp}, l = m :: rest → m ≠ .idleCheck →
      0 < l.length ∧ l[0]? ≠ some .idleCheck := by
    rintro _ m rest rfl hm
    simpa using hm
  cases op with
  | readbit => exact key rfl (by decide)
  | readlines => exact key rfl (by decide)
  | send b => exact key (m := .act .clearTries) rfl (by decide)
  | recv => exact key (m := .act (.setIe false)) rfl (by decide)
  | setie e => exact key (m := .act (.setIe e)) rfl nofun
  | setbit b => exact key (m := .act (.dat (.lit b))) rfl nofun
  | pulse => exact key (m := .act (.wait .settle1)) rfl (by decide)
  | reldat => exact key (m := .act .releaseDat) rfl (by decide)

end Sys2Proof.Machine
end

