-- ==== Sys2Proof/Laws/State.lean ====
section
/-! SUPPORT. What each named update of State does to each field, one lemma per field per update, so that no proof unfolds
a record update. -/

namespace Sys2Proof.Machine

variable (s : State)


/-! ### `State.interrupt` -/

@[simp] theorem State.interrupt_cfg : (s.interrupt).cfg = s.cfg := rfl
@[simp] theorem State.interrupt_clkDrv : (s.interrupt).clkDrv = s.clkDrv := rfl
@[simp] theorem State.interrupt_datDrv : (s.interrupt).datDrv = s.datDrv := rfl
@[simp] theorem State.interrupt_datPrev : (s.interrupt).datPrev = s.datPrev := rfl
@[simp] theorem State.interrupt_ie : (s.interrupt).ie = s.ie := rfl
@[simp] theorem State.interrupt_busy : (s.interrupt).busy = s.busy := rfl
@[simp] theorem State.interrupt_hostTalking : (s.interrupt).hostTalking = (s.hostTalking || (s.ie && triggered s.cfg.irqTrigger s.datPrev s.datLine)) := rfl
@[simp] theorem State.interrupt_lastSent : (s.interrupt).lastSent = s.lastSent := rfl
@[simp] theorem State.interrupt_shreg : (s.interrupt).shreg = s.shreg := rfl
@[simp] theorem State.interrupt_par : (s.interrupt).par = s.par := rfl
@[simp] theorem State.interrupt_bitn : (s.interrupt).bitn = s.bitn := rfl
@[simp] theorem State.interrupt_tries : (s.interrupt).tries = s.tries := rfl
@[simp] theorem State.interrupt_ok : (s.interrupt).ok = s.ok := rfl
@[simp] theorem State.interrupt_seq : (s.interrupt).seq = s.seq := rfl
@[simp] theorem State.interrupt_req : (s.interrupt).req = s.req := rfl
@[simp] theorem State.interrupt_result : (s.interrupt).result = s.result := rfl
@[simp] theorem State.interrupt_events : (s.interrupt).events = s.events := rfl
@[simp] theorem State.interrupt_refused : (s.interrupt).refused = s.refused := rfl
@[simp] theorem State.interrupt_now : (s.interrupt).now = s.now := rfl
@[simp] theorem State.interrupt_host : (s.interrupt).host = s.host := rfl
@[simp] theorem State.interrupt_consumer : (s.interrupt).consumer = s.consumer := rfl
@[simp] theorem State.interrupt_trace : (s.interrupt).trace = s.trace := rfl
@[simp] theorem State.interrupt_draws : (s.interrupt).draws = s.draws := rfl

/-! ### `State.tick` -/

@[simp] theorem State.tick_cfg : (s.tick).cfg = s.cfg := rfl
@[simp] theorem State.tick_clkDrv : (s.tick).clkDrv = s.clkDrv := rfl
@[simp] theorem State.tick_datDrv : (s.tick).datDrv = s.datDrv := rfl
@[simp] theorem State.tick_datPrev : (s.tick).datPrev = s.datLine := rfl
@[simp] theorem State.tick_ie : (s.tick).ie = s.ie := rfl
@[simp] theorem State.tick_busy : (s.tick).busy = s.busy := rfl
@[simp] theorem State.tick_hostTalking : (s.tick).hostTalking = (s.hostTalking || (s.ie && triggered s.cfg.irqTrigger s.datPrev s.datLine)) := rfl
@[simp] theorem State.tick_lastSent : (s.tick).lastSent = s.lastSent := rfl
@[simp] theorem State.tick_shreg : (s.tick).shreg = s.shreg := rfl
@[simp] theorem State.tick_par : (s.tick).par = s.par := rfl
@[simp] theorem State.tick_bitn : (s.tick).bitn = s.bitn := rfl
@[simp] theorem State.tick_tries : (s.tick).tries = s.tries := rfl
@[simp] theorem State.tick_ok : (s.tick).ok = s.ok := rfl
@[simp] theorem State.tick_seq : (s.tick).seq = s.seq := rfl
@[simp] theorem State.tick_req : (s.tick).req = s.req := rfl
@[simp] theorem State.tick_result : (s.tick).result = s.result := rfl
@[simp] theorem State.tick_events : (s.tick).events = s.events := rfl
@[simp] theorem State.tick_refused : (s.tick).refused = s.refused := rfl
@[simp] theorem State.tick_now : (s.tick).now = s.now + 1 := rfl
@[simp] theorem State.tick_host : (s.tick).host = s.host := rfl
@[simp] theorem State.tick_consumer : (s.tick).consumer = s.consumer := rfl
@[simp] theorem State.tick_trace : (s.tick).trace = s.trace := rfl
@[simp] theorem State.tick_draws : (s.tick).draws = s.draws := rfl

/-! ### `State.countDraw` -/

@[simp] theorem State.countDraw_cfg : (s.countDraw).cfg = s.cfg := rfl
@[simp] theorem State.countDraw_clkDrv : (s.countDraw).clkDrv = s.clkDrv := rfl
@[simp] theorem State.countDraw_datDrv : (s.countDraw).datDrv = s.datDrv := rfl
@[simp] theorem State.countDraw_datPrev : (s.countDraw).datPrev = s.datPrev := rfl
@[simp] theorem State.countDraw_ie : (s.countDraw).ie = s.ie := rfl
@[simp] theorem State.countDraw_busy : (s.countDraw).busy = s.busy := rfl
@[simp] theorem State.countDraw_hostTalking : (s.countDraw).hostTalking = s.hostTalking := rfl
@[simp] theorem State.countDraw_lastSent : (s.countDraw).lastSent = s.lastSent := rfl
@[simp] theorem State.countDraw_shreg : (s.countDraw).shreg = s.shreg := rfl
@[simp] theorem State.countDraw_par : (s.countDraw).par = s.par := rfl
@[simp] theorem State.countDraw_bitn : (s.countDraw).bitn = s.bitn := rfl
@[simp] theorem State.countDraw_tries : (s.countDraw).tries = s.tries := rfl
@[simp] theorem State.countDraw_ok : (s.countDraw).ok = s.ok := rfl
@[simp] theorem State.countDraw_seq : (s.countDraw).seq = s.seq := rfl
@[simp] theorem State.countDraw_req : (s.countDraw).req = s.req := rfl
@[simp] theorem State.countDraw_result : (s.countDraw).result = s.result := rfl
@[simp] theorem State.countDraw_events : (s.countDraw).events = s.events := rfl
@[simp] theorem State.countDraw_refused : (s.countDraw).refused = s.refused := rfl
@[simp] theorem State.countDraw_now : (s.countDraw).now = s.now := rfl
@[simp] theorem State.countDraw_host : (s.countDraw).host = s.host := rfl
@[simp] theorem State.countDraw_consumer : (s.countDraw).consumer = s.consumer := rfl
@[simp] theorem State.countDraw_trace : (s.countDraw).trace = s.trace := rfl
@[simp] theorem State.countDraw_draws : (s.countDraw).draws = s.draws + 1 := rfl

/-! ### `State.record` -/

@[simp] theorem State.record_cfg (a : Action) : (s.record a).cfg = s.cfg := rfl
@[simp] theorem State.record_clkDrv (a : Action) : (s.record a).clkDrv = s.clkDrv := rfl
@[simp] theorem State.record_datDrv (a : Action) : (s.record a).datDrv = s.datDrv := rfl
@[simp] theorem State.record_datPrev (a : Action) : (s.record a).datPrev = s.datPrev := rfl
@[simp] theorem State.record_ie (a : Action) : (s.record a).ie = s.ie := rfl
@[simp] theorem State.record_busy (a : Action) : (s.record a).busy = s.busy := rfl
@[simp] theorem State.record_hostTalking (a : Action) : (s.record a).hostTalking = s.hostTalking := rfl
@[simp] theorem State.record_lastSent (a : Action) : (s.record a).lastSent = s.lastSent := rfl
@[simp] theorem State.record_shreg (a : Action) : (s.record a).shreg = s.shreg := rfl
@[simp] theorem State.record_par (a : Action) : (s.record a).par = s.par := rfl
@[simp] theorem State.record_bitn (a : Action) : (s.record a).bitn = s.bitn := rfl
@[simp] theorem State.record_tries (a : Action) : (s.record a).tries = s.tries := rfl
@[simp] theorem State.record_ok (a : Action) : (s.record a).ok = s.ok := rfl
@[simp] theorem State.record_seq (a : Action) : (s.record a).seq = s.seq := rfl
@[simp] theorem State.record_req (a : Action) : (s.record a).req = s.req := rfl
@[simp] theorem State.record_result (a : Action) : (s.record a).result = s.result := rfl
@[simp] theorem State.record_events (a : Action) : (s.record a).events = s.events := rfl
@[simp] theorem State.record_refused (a : Action) : (s.record a).refused = s.refused := rfl
@[simp] theorem State.record_now (a : Action) : (s.record a).now = s.now := rfl
@[simp] theorem State.record_host (a : Action) : (s.record a).host = s.host := rfl
@[simp] theorem State.record_consumer (a : Action) : (s.record a).consumer = s.consumer := rfl
@[simp] theorem State.record_trace (a : Action) : (s.record a).trace = ⟨s.now, a⟩ :: s.trace := rfl
@[simp] theorem State.record_draws (a : Action) : (s.record a).draws = s.draws := rfl

/-! ### `State.driveClk` -/

@[simp] theorem State.driveClk_cfg (d : Bool) : (s.driveClk d).cfg = s.cfg := rfl
@[simp] theorem State.driveClk_clkDrv (d : Bool) : (s.driveClk d).clkDrv = d := rfl
@[simp] theorem State.driveClk_datDrv (d : Bool) : (s.driveClk d).datDrv = s.datDrv := rfl
@[simp] theorem State.driveClk_datPrev (d : Bool) : (s.driveClk d).datPrev = s.datPrev := rfl
@[simp] theorem State.driveClk_ie (d : Bool) : (s.driveClk d).ie = s.ie := rfl
@[simp] theorem State.driveClk_busy (d : Bool) : (s.driveClk d).busy = s.busy := rfl
@[simp] theorem State.driveClk_hostTalking (d : Bool) : (s.driveClk d).hostTalking = s.hostTalking := rfl
@[simp] theorem State.driveClk_lastSent (d : Bool) : (s.driveClk d).lastSent = s.lastSent := rfl
@[simp] theorem State.driveClk_shreg (d : Bool) : (s.driveClk d).shreg = s.shreg := rfl
@[simp] theorem State.driveClk_par (d : Bool) : (s.driveClk d).par = s.par := rfl
@[simp] theorem State.driveClk_bitn (d : Bool) : (s.driveClk d).bitn = s.bitn := rfl
@[simp] theorem State.driveClk_tries (d : Bool) : (s.driveClk d).tries = s.tries := rfl
@[simp] theorem State.driveClk_ok (d : Bool) : (s.driveClk d).ok = s.ok := rfl
@[simp] theorem State.driveClk_seq (d : Bool) : (s.driveClk d).seq = s.seq := rfl
@[simp] theorem State.driveClk_req (d : Bool) : (s.driveClk d).req = s.req := rfl
@[simp] theorem State.driveClk_result (d : Bool) : (s.driveClk d).result = s.result := rfl
@[simp] theorem State.driveClk_events (d : Bool) : (s.driveClk d).events = s.events := rfl
@[simp] theorem State.driveClk_refused (d : Bool) : (s.driveClk d).refused = s.refused := rfl
@[simp] theorem State.driveClk_now (d : Bool) : (s.driveClk d).now = s.now := rfl
@[simp] theorem State.driveClk_host (d : Bool) : (s.driveClk d).host = s.host := rfl
@[simp] theorem State.driveClk_consumer (d : Bool) : (s.driveClk d).consumer = s.consumer := rfl
@[simp] theorem State.driveClk_trace (d : Bool) : (s.driveClk d).trace = ⟨s.now, .clkDrv d⟩ :: s.trace := rfl
@[simp] theorem State.driveClk_draws (d : Bool) : (s.driveClk d).draws = s.draws := rfl

/-! ### `State.driveDat` -/

@[simp] theorem State.driveDat_cfg (d : Bool) : (s.driveDat d).cfg = s.cfg := rfl
@[simp] theorem State.driveDat_clkDrv (d : Bool) : (s.driveDat d).clkDrv = s.clkDrv := rfl
@[simp] theorem State.driveDat_datDrv (d : Bool) : (s.driveDat d).datDrv = d := rfl
@[simp] theorem State.driveDat_datPrev (d : Bool) : (s.driveDat d).datPrev = s.datPrev := rfl
@[simp] theorem State.driveDat_ie (d : Bool) : (s.driveDat d).ie = s.ie := rfl
@[simp] theorem State.driveDat_busy (d : Bool) : (s.driveDat d).busy = s.busy := rfl
@[simp] theorem State.driveDat_hostTalking (d : Bool) : (s.driveDat d).hostTalking = s.hostTalking := rfl
@[simp] theorem State.driveDat_lastSent (d : Bool) : (s.driveDat d).lastSent = s.lastSent := rfl
@[simp] theorem State.driveDat_shreg (d : Bool) : (s.driveDat d).shreg = s.shreg := rfl
@[simp] theorem State.driveDat_par (d : Bool) : (s.driveDat d).par = s.par := rfl
@[simp] theorem State.driveDat_bitn (d : Bool) : (s.driveDat d).bitn = s.bitn := rfl
@[simp] theorem State.driveDat_tries (d : Bool) : (s.driveDat d).tries = s.tries := rfl
@[simp] theorem State.driveDat_ok (d : Bool) : (s.driveDat d).ok = s.ok := rfl
@[simp] theorem State.driveDat_seq (d : Bool) : (s.driveDat d).seq = s.seq := rfl
@[simp] theorem State.driveDat_req (d : Bool) : (s.driveDat d).req = s.req := rfl
@[simp] theorem State.driveDat_result (d : Bool) : (s.driveDat d).result = s.result := rfl
@[simp] theorem State.driveDat_events (d : Bool) : (s.driveDat d).events = s.events := rfl
@[simp] theorem State.driveDat_refused (d : Bool) : (s.driveDat d).refused = s.refused := rfl
@[simp] theorem State.driveDat_now (d : Bool) : (s.driveDat d).now = s.now := rfl
@[simp] theorem State.driveDat_host (d : Bool) : (s.driveDat d).host = s.host := rfl
@[simp] theorem State.driveDat_consumer (d : Bool) : (s.driveDat d).consumer = s.consumer := rfl
@[simp] theorem State.driveDat_trace (d : Bool) : (s.driveDat d).trace = ⟨s.now, .datDrv d⟩ :: s.trace := rfl
@[simp] theorem State.driveDat_draws (d : Bool) : (s.driveDat d).draws = s.draws := rfl

/-! ### `State.sampleClk` -/

@[simp] theorem State.sampleClk_cfg : (s.sampleClk).cfg = s.cfg := rfl
@[simp] theorem State.sampleClk_clkDrv : (s.sampleClk).clkDrv = s.clkDrv := rfl
@[simp] theorem State.sampleClk_datDrv : (s.sampleClk).datDrv = s.datDrv := rfl
@[simp] theorem State.sampleClk_datPrev : (s.sampleClk).datPrev = s.datPrev := rfl
@[simp] theorem State.sampleClk_ie : (s.sampleClk).ie = s.ie := rfl
@[simp] theorem State.sampleClk_busy : (s.sampleClk).busy = s.busy := rfl
@[simp] theorem State.sampleClk_hostTalking : (s.sampleClk).hostTalking = s.hostTalking := rfl
@[simp] theorem State.sampleClk_lastSent : (s.sampleClk).lastSent = s.lastSent := rfl
@[simp] theorem State.sampleClk_shreg : (s.sampleClk).shreg = s.shreg := rfl
@[simp] theorem State.sampleClk_par : (s.sampleClk).par = s.par := rfl
@[simp] theorem State.sampleClk_bitn : (s.sampleClk).bitn = s.bitn := rfl
@[simp] theorem State.sampleClk_tries : (s.sampleClk).tries = s.tries := rfl
@[simp] theorem State.sampleClk_ok : (s.sampleClk).ok = s.ok := rfl
@[simp] theorem State.sampleClk_seq : (s.sampleClk).seq = s.seq := rfl
@[simp] theorem State.sampleClk_req : (s.sampleClk).req = s.req := rfl
@[simp] theorem State.sampleClk_result : (s.sampleClk).result = s.result := rfl
@[simp] theorem State.sampleClk_events : (s.sampleClk).events = s.events := rfl
@[simp] theorem State.sampleClk_refused : (s.sampleClk).refused = s.refused := rfl
@[simp] theorem State.sampleClk_now : (s.sampleClk).now = s.now := rfl
@[simp] theorem State.sampleClk_host : (s.sampleClk).host = s.host := rfl
@[simp] theorem State.sampleClk_consumer : (s.sampleClk).consumer = s.consumer := rfl
@[simp] theorem State.sampleClk_trace : (s.sampleClk).trace = ⟨s.now, .sampleClk s.clkLine⟩ :: s.trace := rfl
@[simp] theorem State.sampleClk_draws : (s.sampleClk).draws = s.draws := rfl

/-! ### `State.sampleDat` -/

@[simp] theorem State.sampleDat_cfg : (s.sampleDat).cfg = s.cfg := rfl
@[simp] theorem State.sampleDat_clkDrv : (s.sampleDat).clkDrv = s.clkDrv := rfl
@[simp] theorem State.sampleDat_datDrv : (s.sampleDat).datDrv = s.datDrv := rfl
@[simp] theorem State.sampleDat_datPrev : (s.sampleDat).datPrev = s.datPrev := rfl
@[simp] theorem State.sampleDat_ie : (s.sampleDat).ie = s.ie := rfl
@[simp] theorem State.sampleDat_busy : (s.sampleDat).busy = s.busy := rfl
@[simp] theorem State.sampleDat_hostTalking : (s.sampleDat).hostTalking = s.hostTalking := rfl
@[simp] theorem State.sampleDat_lastSent : (s.sampleDat).lastSent = s.lastSent := rfl
@[simp] theorem State.sampleDat_shreg : (s.sampleDat).shreg = s.shreg := rfl
@[simp] theorem State.sampleDat_par : (s.sampleDat).par = s.par := rfl
@[simp] theorem State.sampleDat_bitn : (s.sampleDat).bitn = s.bitn := rfl
@[simp] theorem State.sampleDat_tries : (s.sampleDat).tries = s.tries := rfl
@[simp] theorem State.sampleDat_ok : (s.sampleDat).ok = s.ok := rfl
@[simp] theorem State.sampleDat_seq : (s.sampleDat).seq = s.seq := rfl
@[simp] theorem State.sampleDat_req : (s.sampleDat).req = s.req := rfl
@[simp] theorem State.sampleDat_result : (s.sampleDat).result = s.result := rfl
@[simp] theorem State.sampleDat_events : (s.sampleDat).events = s.events := rfl
@[simp] theorem State.sampleDat_refused : (s.sampleDat).refused = s.refused := rfl
@[simp] theorem State.sampleDat_now : (s.sampleDat).now = s.now := rfl
@[simp] theorem State.sampleDat_host : (s.sampleDat).host = s.host := rfl
@[simp] theorem State.sampleDat_consumer : (s.sampleDat).consumer = s.consumer := rfl
@[simp] theorem State.sampleDat_trace : (s.sampleDat).trace = ⟨s.now, .sampleDat s.datLine⟩ :: s.trace := rfl
@[simp] theorem State.sampleDat_draws : (s.sampleDat).draws = s.draws := rfl

/-! ### `State.writeIe` -/

@[simp] theorem State.writeIe_cfg (v : Bool) : (s.writeIe v).cfg = s.cfg := rfl
@[simp] theorem State.writeIe_clkDrv (v : Bool) : (s.writeIe v).clkDrv = s.clkDrv := rfl
@[simp] theorem State.writeIe_datDrv (v : Bool) : (s.writeIe v).datDrv = s.datDrv := rfl
@[simp] theorem State.writeIe_datPrev (v : Bool) : (s.writeIe v).datPrev = s.datPrev := rfl
@[simp] theorem State.writeIe_ie (v : Bool) : (s.writeIe v).ie = v := rfl
@[simp] theorem State.writeIe_busy (v : Bool) : (s.writeIe v).busy = s.busy := rfl
@[simp] theorem State.writeIe_hostTalking (v : Bool) : (s.writeIe v).hostTalking = s.hostTalking := rfl
@[simp] theorem State.writeIe_lastSent (v : Bool) : (s.writeIe v).lastSent = s.lastSent := rfl
@[simp] theorem State.writeIe_shreg (v : Bool) : (s.writeIe v).shreg = s.shreg := rfl
@[simp] theorem State.writeIe_par (v : Bool) : (s.writeIe v).par = s.par := rfl
@[simp] theorem State.writeIe_bitn (v : Bool) : (s.writeIe v).bitn = s.bitn := rfl
@[simp] theorem State.writeIe_tries (v : Bool) : (s.writeIe v).tries = s.tries := rfl
@[simp] theorem State.writeIe_ok (v : Bool) : (s.writeIe v).ok = s.ok := rfl
@[simp] theorem State.writeIe_seq (v : Bool) : (s.writeIe v).seq = s.seq := rfl
@[simp] theorem State.writeIe_req (v : Bool) : (s.writeIe v).req = s.req := rfl
@[simp] theorem State.writeIe_result (v : Bool) : (s.writeIe v).result = s.result := rfl
@[simp] theorem State.writeIe_events (v : Bool) : (s.writeIe v).events = s.events := rfl
@[simp] theorem State.writeIe_refused (v : Bool) : (s.writeIe v).refused = s.refused := rfl
@[simp] theorem State.writeIe_now (v : Bool) : (s.writeIe v).now = s.now := rfl
@[simp] theorem State.writeIe_host (v : Bool) : (s.writeIe v).host = s.host := rfl
@[simp] theorem State.writeIe_consumer (v : Bool) : (s.writeIe v).consumer = s.consumer := rfl
@[simp] theorem State.writeIe_trace (v : Bool) : (s.writeIe v).trace = ⟨s.now, .ie v⟩ :: s.trace := rfl
@[simp] theorem State.writeIe_draws (v : Bool) : (s.writeIe v).draws = s.draws := rfl

/-! ### `State.writeBusy` -/

@[simp] theorem State.writeBusy_cfg (v : Bool) : (s.writeBusy v).cfg = s.cfg := rfl
@[simp] theorem State.writeBusy_clkDrv (v : Bool) : (s.writeBusy v).clkDrv = s.clkDrv := rfl
@[simp] theorem State.writeBusy_datDrv (v : Bool) : (s.writeBusy v).datDrv = s.datDrv := rfl
@[simp] theorem State.writeBusy_datPrev (v : Bool) : (s.writeBusy v).datPrev = s.datPrev := rfl
@[simp] theorem State.writeBusy_ie (v : Bool) : (s.writeBusy v).ie = s.ie := rfl
@[simp] theorem State.writeBusy_busy (v : Bool) : (s.writeBusy v).busy = v := rfl
@[simp] theorem State.writeBusy_hostTalking (v : Bool) : (s.writeBusy v).hostTalking = s.hostTalking := rfl
@[simp] theorem State.writeBusy_lastSent (v : Bool) : (s.writeBusy v).lastSent = s.lastSent := rfl
@[simp] theorem State.writeBusy_shreg (v : Bool) : (s.writeBusy v).shreg = s.shreg := rfl
@[simp] theorem State.writeBusy_par (v : Bool) : (s.writeBusy v).par = s.par := rfl
@[simp] theorem State.writeBusy_bitn (v : Bool) : (s.writeBusy v).bitn = s.bitn := rfl
@[simp] theorem State.writeBusy_tries (v : Bool) : (s.writeBusy v).tries = s.tries := rfl
@[simp] theorem State.writeBusy_ok (v : Bool) : (s.writeBusy v).ok = s.ok := rfl
@[simp] theorem State.writeBusy_seq (v : Bool) : (s.writeBusy v).seq = s.seq := rfl
@[simp] theorem State.writeBusy_req (v : Bool) : (s.writeBusy v).req = s.req := rfl
@[simp] theorem State.writeBusy_result (v : Bool) : (s.writeBusy v).result = s.result := rfl
@[simp] theorem State.writeBusy_events (v : Bool) : (s.writeBusy v).events = s.events := rfl
@[simp] theorem State.writeBusy_refused (v : Bool) : (s.writeBusy v).refused = s.refused := rfl
@[simp] theorem State.writeBusy_now (v : Bool) : (s.writeBusy v).now = s.now := rfl
@[simp] theorem State.writeBusy_host (v : Bool) : (s.writeBusy v).host = s.host := rfl
@[simp] theorem State.writeBusy_consumer (v : Bool) : (s.writeBusy v).consumer = s.consumer := rfl
@[simp] theorem State.writeBusy_trace (v : Bool) : (s.writeBusy v).trace = ⟨s.now, .busy v⟩ :: s.trace := rfl
@[simp] theorem State.writeBusy_draws (v : Bool) : (s.writeBusy v).draws = s.draws := rfl

/-! ### `State.writeLastSent` -/

@[simp] theorem State.writeLastSent_cfg (b : Byte) : (s.writeLastSent b).cfg = s.cfg := rfl
@[simp] theorem State.writeLastSent_clkDrv (b : Byte) : (s.writeLastSent b).clkDrv = s.clkDrv := rfl
@[simp] theorem State.writeLastSent_datDrv (b : Byte) : (s.writeLastSent b).datDrv = s.datDrv := rfl
@[simp] theorem State.writeLastSent_datPrev (b : Byte) : (s.writeLastSent b).datPrev = s.datPrev := rfl
@[simp] theorem State.writeLastSent_ie (b : Byte) : (s.writeLastSent b).ie = s.ie := rfl
@[simp] theorem State.writeLastSent_busy (b : Byte) : (s.writeLastSent b).busy = s.busy := rfl
@[simp] theorem State.writeLastSent_hostTalking (b : Byte) : (s.writeLastSent b).hostTalking = s.hostTalking := rfl
@[simp] theorem State.writeLastSent_lastSent (b : Byte) : (s.writeLastSent b).lastSent = b := rfl
@[simp] theorem State.writeLastSent_shreg (b : Byte) : (s.writeLastSent b).shreg = s.shreg := rfl
@[simp] theorem State.writeLastSent_par (b : Byte) : (s.writeLastSent b).par = s.par := rfl
@[simp] theorem State.writeLastSent_bitn (b : Byte) : (s.writeLastSent b).bitn = s.bitn := rfl
@[simp] theorem State.writeLastSent_tries (b : Byte) : (s.writeLastSent b).tries = s.tries := rfl
@[simp] theorem State.writeLastSent_ok (b : Byte) : (s.writeLastSent b).ok = s.ok := rfl
@[simp] theorem State.writeLastSent_seq (b : Byte) : (s.writeLastSent b).seq = s.seq := rfl
@[simp] theorem State.writeLastSent_req (b : Byte) : (s.writeLastSent b).req = s.req := rfl
@[simp] theorem State.writeLastSent_result (b : Byte) : (s.writeLastSent b).result = s.result := rfl
@[simp] theorem State.writeLastSent_events (b : Byte) : (s.writeLastSent b).events = s.events := rfl
@[simp] theorem State.writeLastSent_refused (b : Byte) : (s.writeLastSent b).refused = s.refused := rfl
@[simp] theorem State.writeLastSent_now (b : Byte) : (s.writeLastSent b).now = s.now := rfl
@[simp] theorem State.writeLastSent_host (b : Byte) : (s.writeLastSent b).host = s.host := rfl
@[simp] theorem State.writeLastSent_consumer (b : Byte) : (s.writeLastSent b).consumer = s.consumer := rfl
@[simp] theorem State.writeLastSent_trace (b : Byte) : (s.writeLastSent b).trace = ⟨s.now, .lastSent b⟩ :: s.trace := rfl
@[simp] theorem State.writeLastSent_draws (b : Byte) : (s.writeLastSent b).draws = s.draws := rfl

/-! ### `State.writeShreg` -/

@[simp] theorem State.writeShreg_cfg (b : Byte) : (s.writeShreg b).cfg = s.cfg := rfl
@[simp] theorem State.writeShreg_clkDrv (b : Byte) : (s.writeShreg b).clkDrv = s.clkDrv := rfl
@[simp] theorem State.writeShreg_datDrv (b : Byte) : (s.writeShreg b).datDrv = s.datDrv := rfl
@[simp] theorem State.writeShreg_datPrev (b : Byte) : (s.writeShreg b).datPrev = s.datPrev := rfl
@[simp] theorem State.writeShreg_ie (b : Byte) : (s.writeShreg b).ie = s.ie := rfl
@[simp] theorem State.writeShreg_busy (b : Byte) : (s.writeShreg b).busy = s.busy := rfl
@[simp] theorem State.writeShreg_hostTalking (b : Byte) : (s.writeShreg b).hostTalking = s.hostTalking := rfl
@[simp] theorem State.writeShreg_lastSent (b : Byte) : (s.writeShreg b).lastSent = s.lastSent := rfl
@[simp] theorem State.writeShreg_shreg (b : Byte) : (s.writeShreg b).shreg = b := rfl
@[simp] theorem State.writeShreg_par (b : Byte) : (s.writeShreg b).par = s.par := rfl
@[simp] theorem State.writeShreg_bitn (b : Byte) : (s.writeShreg b).bitn = s.bitn := rfl
@[simp] theorem State.writeShreg_tries (b : Byte) : (s.writeShreg b).tries = s.tries := rfl
@[simp] theorem State.writeShreg_ok (b : Byte) : (s.writeShreg b).ok = s.ok := rfl
@[simp] theorem State.writeShreg_seq (b : Byte) : (s.writeShreg b).seq = s.seq := rfl
@[simp] theorem State.writeShreg_req (b : Byte) : (s.writeShreg b).req = s.req := rfl
@[simp] theorem State.writeShreg_result (b : Byte) : (s.writeShreg b).result = s.result := rfl
@[simp] theorem State.writeShreg_events (b : Byte) : (s.writeShreg b).events = s.events := rfl
@[simp] theorem State.writeShreg_refused (b : Byte) : (s.writeShreg b).refused = s.refused := rfl
@[simp] theorem State.writeShreg_now (b : Byte) : (s.writeShreg b).now = s.now := rfl
@[simp] theorem State.writeShreg_host (b : Byte) : (s.writeShreg b).host = s.host := rfl
@[simp] theorem State.writeShreg_consumer (b : Byte) : (s.writeShreg b).consumer = s.consumer := rfl
@[simp] theorem State.writeShreg_trace (b : Byte) : (s.writeShreg b).trace = s.trace := rfl
@[simp] theorem State.writeShreg_draws (b : Byte) : (s.writeShreg b).draws = s.draws := rfl

/-! ### `State.writePar` -/

@[simp] theorem State.writePar_cfg (v : Bool) : (s.writePar v).cfg = s.cfg := rfl
@[simp] theorem State.writePar_clkDrv (v : Bool) : (s.writePar v).clkDrv = s.clkDrv := rfl
@[simp] theorem State.writePar_datDrv (v : Bool) : (s.writePar v).datDrv = s.datDrv := rfl
@[simp] theorem State.writePar_datPrev (v : Bool) : (s.writePar v).datPrev = s.datPrev := rfl
@[simp] theorem State.writePar_ie (v : Bool) : (s.writePar v).ie = s.ie := rfl
@[simp] theorem State.writePar_busy (v : Bool) : (s.writePar v).busy = s.busy := rfl
@[simp] theorem State.writePar_hostTalking (v : Bool) : (s.writePar v).hostTalking = s.hostTalking := rfl
@[simp] theorem State.writePar_lastSent (v : Bool) : (s.writePar v).lastSent = s.lastSent := rfl
@[simp] theorem State.writePar_shreg (v : Bool) : (s.writePar v).shreg = s.shreg := rfl
@[simp] theorem State.writePar_par (v : Bool) : (s.writePar v).par = v := rfl
@[simp] theorem State.writePar_bitn (v : Bool) : (s.writePar v).bitn = s.bitn := rfl
@[simp] theorem State.writePar_tries (v : Bool) : (s.writePar v).tries = s.tries := rfl
@[simp] theorem State.writePar_ok (v : Bool) : (s.writePar v).ok = s.ok := rfl
@[simp] theorem State.writePar_seq (v : Bool) : (s.writePar v).seq = s.seq := rfl
@[simp] theorem State.writePar_req (v : Bool) : (s.writePar v).req = s.req := rfl
@[simp] theorem State.writePar_result (v : Bool) : (s.writePar v).result = s.result := rfl
@[simp] theorem State.writePar_events (v : Bool) : (s.writePar v).events = s.events := rfl
@[simp] theorem State.writePar_refused (v : Bool) : (s.writePar v).refused = s.refused := rfl
@[simp] theorem State.writePar_now (v : Bool) : (s.writePar v).now = s.now := rfl
@[simp] theorem State.writePar_host (v : Bool) : (s.writePar v).host = s.host := rfl
@[simp] theorem State.writePar_consumer (v : Bool) : (s.writePar v).consumer = s.consumer := rfl
@[simp] theorem State.writePar_trace (v : Bool) : (s.writePar v).trace = s.trace := rfl
@[simp] theorem State.writePar_draws (v : Bool) : (s.writePar v).draws = s.draws := rfl

/-! ### `State.writeBitn` -/

@[simp] theorem State.writeBitn_cfg (n : Nat) : (s.writeBitn n).cfg = s.cfg := rfl
@[simp] theorem State.writeBitn_clkDrv (n : Nat) : (s.writeBitn n).clkDrv = s.clkDrv := rfl
@[simp] theorem State.writeBitn_datDrv (n : Nat) : (s.writeBitn n).datDrv = s.datDrv := rfl
@[simp] theorem State.writeBitn_datPrev (n : Nat) : (s.writeBitn n).datPrev = s.datPrev := rfl
@[simp] theorem State.writeBitn_ie (n : Nat) : (s.writeBitn n).ie = s.ie := rfl
@[simp] theorem State.writeBitn_busy (n : Nat) : (s.writeBitn n).busy = s.busy := rfl
@[simp] theorem State.writeBitn_hostTalking (n : Nat) : (s.writeBitn n).hostTalking = s.hostTalking := rfl
@[simp] theorem State.writeBitn_lastSent (n : Nat) : (s.writeBitn n).lastSent = s.lastSent := rfl
@[simp] theorem State.writeBitn_shreg (n : Nat) : (s.writeBitn n).shreg = s.shreg := rfl
@[simp] theorem State.writeBitn_par (n : Nat) : (s.writeBitn n).par = s.par := rfl
@[simp] theorem State.writeBitn_bitn (n : Nat) : (s.writeBitn n).bitn = n := rfl
@[simp] theorem State.writeBitn_tries (n : Nat) : (s.writeBitn n).tries = s.tries := rfl
@[simp] theorem State.writeBitn_ok (n : Nat) : (s.writeBitn n).ok = s.ok := rfl
@[simp] theorem State.writeBitn_seq (n : Nat) : (s.writeBitn n).seq = s.seq := rfl
@[simp] theorem State.writeBitn_req (n : Nat) : (s.writeBitn n).req = s.req := rfl
@[simp] theorem State.writeBitn_result (n : Nat) : (s.writeBitn n).result = s.result := rfl
@[simp] theorem State.writeBitn_events (n : Nat) : (s.writeBitn n).events = s.events := rfl
@[simp] theorem State.writeBitn_refused (n : Nat) : (s.writeBitn n).refused = s.refused := rfl
@[simp] theorem State.writeBitn_now (n : Nat) : (s.writeBitn n).now = s.now := rfl
@[simp] theorem State.writeBitn_host (n : Nat) : (s.writeBitn n).host = s.host := rfl
@[simp] theorem State.writeBitn_consumer (n : Nat) : (s.writeBitn n).consumer = s.consumer := rfl
@[simp] theorem State.writeBitn_trace (n : Nat) : (s.writeBitn n).trace = s.trace := rfl
@[simp] theorem State.writeBitn_draws (n : Nat) : (s.writeBitn n).draws = s.draws := rfl

/-! ### `State.writeTries` -/

@[simp] theorem State.writeTries_cfg (n : Nat) : (s.writeTries n).cfg = s.cfg := rfl
@[simp] theorem State.writeTries_clkDrv (n : Nat) : (s.writeTries n).clkDrv = s.clkDrv := rfl
@[simp] theorem State.writeTries_datDrv (n : Nat) : (s.writeTries n).datDrv = s.datDrv := rfl
@[simp] theorem State.writeTries_datPrev (n : Nat) : (s.writeTries n).datPrev = s.datPrev := rfl
@[simp] theorem State.writeTries_ie (n : Nat) : (s.writeTries n).ie = s.ie := rfl
@[simp] theorem State.writeTries_busy (n : Nat) : (s.writeTries n).busy = s.busy := rfl
@[simp] theorem State.writeTries_hostTalking (n : Nat) : (s.writeTries n).hostTalking = s.hostTalking := rfl
@[simp] theorem State.writeTries_lastSent (n : Nat) : (s.writeTries n).lastSent = s.lastSent := rfl
@[simp] theorem State.writeTries_shreg (n : Nat) : (s.writeTries n).shreg = s.shreg := rfl
@[simp] theorem State.writeTries_par (n : Nat) : (s.writeTries n).par = s.par := rfl
@[simp] theorem State.writeTries_bitn (n : Nat) : (s.writeTries n).bitn = s.bitn := rfl
@[simp] theorem State.writeTries_tries (n : Nat) : (s.writeTries n).tries = n := rfl
@[simp] theorem State.writeTries_ok (n : Nat) : (s.writeTries n).ok = s.ok := rfl
@[simp] theorem State.writeTries_seq (n : Nat) : (s.writeTries n).seq = s.seq := rfl
@[simp] theorem State.writeTries_req (n : Nat) : (s.writeTries n).req = s.req := rfl
@[simp] theorem State.writeTries_result (n : Nat) : (s.writeTries n).result = s.result := rfl
@[simp] theorem State.writeTries_events (n : Nat) : (s.writeTries n).events = s.events := rfl
@[simp] theorem State.writeTries_refused (n : Nat) : (s.writeTries n).refused = s.refused := rfl
@[simp] theorem State.writeTries_now (n : Nat) : (s.writeTries n).now = s.now := rfl
@[simp] theorem State.writeTries_host (n : Nat) : (s.writeTries n).host = s.host := rfl
@[simp] theorem State.writeTries_consumer (n : Nat) : (s.writeTries n).consumer = s.consumer := rfl
@[simp] theorem State.writeTries_trace (n : Nat) : (s.writeTries n).trace = s.trace := rfl
@[simp] theorem State.writeTries_draws (n : Nat) : (s.writeTries n).draws = s.draws := rfl

/-! ### `State.writeOk` -/

@[simp] theorem State.writeOk_cfg (v : Bool) : (s.writeOk v).cfg = s.cfg := rfl
@[simp] theorem State.writeOk_clkDrv (v : Bool) : (s.writeOk v).clkDrv = s.clkDrv := rfl
@[simp] theorem State.writeOk_datDrv (v : Bool) : (s.writeOk v).datDrv = s.datDrv := rfl
@[simp] theorem State.writeOk_datPrev (v : Bool) : (s.writeOk v).datPrev = s.datPrev := rfl
@[simp] theorem State.writeOk_ie (v : Bool) : (s.writeOk v).ie = s.ie := rfl
@[simp] theorem State.writeOk_busy (v : Bool) : (s.writeOk v).busy = s.busy := rfl
@[simp] theorem State.writeOk_hostTalking (v : Bool) : (s.writeOk v).hostTalking = s.hostTalking := rfl
@[simp] theorem State.writeOk_lastSent (v : Bool) : (s.writeOk v).lastSent = s.lastSent := rfl
@[simp] theorem State.writeOk_shreg (v : Bool) : (s.writeOk v).shreg = s.shreg := rfl
@[simp] theorem State.writeOk_par (v : Bool) : (s.writeOk v).par = s.par := rfl
@[simp] theorem State.writeOk_bitn (v : Bool) : (s.writeOk v).bitn = s.bitn := rfl
@[simp] theorem State.writeOk_tries (v : Bool) : (s.writeOk v).tries = s.tries := rfl
@[simp] theorem State.writeOk_ok (v : Bool) : (s.writeOk v).ok = v := rfl
@[simp] theorem State.writeOk_seq (v : Bool) : (s.writeOk v).seq = s.seq := rfl
@[simp] theorem State.writeOk_req (v : Bool) : (s.writeOk v).req = s.req := rfl
@[simp] theorem State.writeOk_result (v : Bool) : (s.writeOk v).result = s.result := rfl
@[simp] theorem State.writeOk_events (v : Bool) : (s.writeOk v).events = s.events := rfl
@[simp] theorem State.writeOk_refused (v : Bool) : (s.writeOk v).refused = s.refused := rfl
@[simp] theorem State.writeOk_now (v : Bool) : (s.writeOk v).now = s.now := rfl
@[simp] theorem State.writeOk_host (v : Bool) : (s.writeOk v).host = s.host := rfl
@[simp] theorem State.writeOk_consumer (v : Bool) : (s.writeOk v).consumer = s.consumer := rfl
@[simp] theorem State.writeOk_trace (v : Bool) : (s.writeOk v).trace = s.trace := rfl
@[simp] theorem State.writeOk_draws (v : Bool) : (s.writeOk v).draws = s.draws := rfl

/-! ### `State.emit` -/

@[simp] theorem State.emit_cfg (v : Byte) : (s.emit v).cfg = s.cfg := rfl
@[simp] theorem State.emit_clkDrv (v : Byte) : (s.emit v).clkDrv = s.clkDrv := rfl
@[simp] theorem State.emit_datDrv (v : Byte) : (s.emit v).datDrv = s.datDrv := rfl
@[simp] theorem State.emit_datPrev (v : Byte) : (s.emit v).datPrev = s.datPrev := rfl
@[simp] theorem State.emit_ie (v : Byte) : (s.emit v).ie = s.ie := rfl
@[simp] theorem State.emit_busy (v : Byte) : (s.emit v).busy = s.busy := rfl
@[simp] theorem State.emit_hostTalking (v : Byte) : (s.emit v).hostTalking = s.hostTalking := rfl
@[simp] theorem State.emit_lastSent (v : Byte) : (s.emit v).lastSent = s.lastSent := rfl
@[simp] theorem State.emit_shreg (v : Byte) : (s.emit v).shreg = s.shreg := rfl
@[simp] theorem State.emit_par (v : Byte) : (s.emit v).par = s.par := rfl
@[simp] theorem State.emit_bitn (v : Byte) : (s.emit v).bitn = s.bitn := rfl
@[simp] theorem State.emit_tries (v : Byte) : (s.emit v).tries = s.tries := rfl
@[simp] theorem State.emit_ok (v : Byte) : (s.emit v).ok = s.ok := rfl
@[simp] theorem State.emit_seq (v : Byte) : (s.emit v).seq = s.seq := rfl
@[simp] theorem State.emit_req (v : Byte) : (s.emit v).req = s.req := rfl
@[simp] theorem State.emit_result (v : Byte) : (s.emit v).result = s.result := rfl
@[simp] theorem State.emit_events (v : Byte) : (s.emit v).events = ⟨s.now, v⟩ :: s.events := rfl
@[simp] theorem State.emit_refused (v : Byte) : (s.emit v).refused = s.refused := rfl
@[simp] theorem State.emit_now (v : Byte) : (s.emit v).now = s.now := rfl
@[simp] theorem State.emit_host (v : Byte) : (s.emit v).host = s.host := rfl
@[simp] theorem State.emit_consumer (v : Byte) : (s.emit v).consumer = s.consumer := rfl
@[simp] theorem State.emit_trace (v : Byte) : (s.emit v).trace = s.trace := rfl
@[simp] theorem State.emit_draws (v : Byte) : (s.emit v).draws = s.draws := rfl

/-! ### `State.goto` -/

@[simp] theorem State.goto_cfg (op : Instr) (k : Nat) : (s.goto op k).cfg = s.cfg := rfl
@[simp] theorem State.goto_clkDrv (op : Instr) (k : Nat) : (s.goto op k).clkDrv = s.clkDrv := rfl
@[simp] theorem State.goto_datDrv (op : Instr) (k : Nat) : (s.goto op k).datDrv = s.datDrv := rfl
@[simp] theorem State.goto_datPrev (op : Instr) (k : Nat) : (s.goto op k).datPrev = s.datPrev := rfl
@[simp] theorem State.goto_ie (op : Instr) (k : Nat) : (s.goto op k).ie = s.ie := rfl
@[simp] theorem State.goto_busy (op : Instr) (k : Nat) : (s.goto op k).busy = s.busy := rfl
@[simp] theorem State.goto_hostTalking (op : Instr) (k : Nat) : (s.goto op k).hostTalking = s.hostTalking := rfl
@[simp] theorem State.goto_lastSent (op : Instr) (k : Nat) : (s.goto op k).lastSent = s.lastSent := rfl
@[simp] theorem State.goto_shreg (op : Instr) (k : Nat) : (s.goto op k).shreg = s.shreg := rfl
@[simp] theorem State.goto_par (op : Instr) (k : Nat) : (s.goto op k).par = s.par := rfl
@[simp] theorem State.goto_bitn (op : Instr) (k : Nat) : (s.goto op k).bitn = s.bitn := rfl
@[simp] theorem State.goto_tries (op : Instr) (k : Nat) : (s.goto op k).tries = s.tries := rfl
@[simp] theorem State.goto_ok (op : Instr) (k : Nat) : (s.goto op k).ok = s.ok := rfl
@[simp] theorem State.goto_seq (op : Instr) (k : Nat) : (s.goto op k).seq = .run op k := rfl
@[simp] theorem State.goto_req (op : Instr) (k : Nat) : (s.goto op k).req = s.req := rfl
@[simp] theorem State.goto_result (op : Instr) (k : Nat) : (s.goto op k).result = s.result := rfl
@[simp] theorem State.goto_events (op : Instr) (k : Nat) : (s.goto op k).events = s.events := rfl
@[simp] theorem State.goto_refused (op : Instr) (k : Nat) : (s.goto op k).refused = s.refused := rfl
@[simp] theorem State.goto_now (op : Instr) (k : Nat) : (s.goto op k).now = s.now := rfl
@[simp] theorem State.goto_host (op : Instr) (k : Nat) : (s.goto op k).host = s.host := rfl
@[simp] theorem State.goto_consumer (op : Instr) (k : Nat) : (s.goto op k).consumer = s.consumer := rfl
@[simp] theorem State.goto_trace (op : Instr) (k : Nat) : (s.goto op k).trace = s.trace := rfl
@[simp] theorem State.goto_draws (op : Instr) (k : Nat) : (s.goto op k).draws = s.draws := rfl

/-! ### `State.finish` -/

@[simp] theorem State.finish_cfg (r : Option Result) : (s.finish r).cfg = s.cfg := rfl
@[simp] theorem State.finish_clkDrv (r : Option Result) : (s.finish r).clkDrv = s.clkDrv := rfl
@[simp] theorem State.finish_datDrv (r : Option Result) : (s.finish r).datDrv = s.datDrv := rfl
@[simp] theorem State.finish_datPrev (r : Option Result) : (s.finish r).datPrev = s.datPrev := rfl
@[simp] theorem State.finish_ie (r : Option Result) : (s.finish r).ie = s.ie := rfl
@[simp] theorem State.finish_busy (r : Option Result) : (s.finish r).busy = s.busy := rfl
@[simp] theorem State.finish_hostTalking (r : Option Result) : (s.finish r).hostTalking = s.hostTalking := rfl
@[simp] theorem State.finish_lastSent (r : Option Result) : (s.finish r).lastSent = s.lastSent := rfl
@[simp] theorem State.finish_shreg (r : Option Result) : (s.finish r).shreg = s.shreg := rfl
@[simp] theorem State.finish_par (r : Option Result) : (s.finish r).par = s.par := rfl
@[simp] theorem State.finish_bitn (r : Option Result) : (s.finish r).bitn = s.bitn := rfl
@[simp] theorem State.finish_tries (r : Option Result) : (s.finish r).tries = s.tries := rfl
@[simp] theorem State.finish_ok (r : Option Result) : (s.finish r).ok = s.ok := rfl
@[simp] theorem State.finish_seq (r : Option Result) : (s.finish r).seq = .idle := rfl
@[simp] theorem State.finish_req (r : Option Result) : (s.finish r).req = s.req := rfl
@[simp] theorem State.finish_result (r : Option Result) : (s.finish r).result = r := rfl
@[simp] theorem State.finish_events (r : Option Result) : (s.finish r).events = s.events := rfl
@[simp] theorem State.finish_refused (r : Option Result) : (s.finish r).refused = s.refused := rfl
@[simp] theorem State.finish_now (r : Option Result) : (s.finish r).now = s.now := rfl
@[simp] theorem State.finish_host (r : Option Result) : (s.finish r).host = s.host := rfl
@[simp] theorem State.finish_consumer (r : Option Result) : (s.finish r).consumer = s.consumer := rfl
@[simp] theorem State.finish_trace (r : Option Result) : (s.finish r).trace = s.trace := rfl
@[simp] theorem State.finish_draws (r : Option Result) : (s.finish r).draws = s.draws := rfl

/-! ### `State.refuse` -/

@[simp] theorem State.refuse_cfg (w : ReqWord) : (s.refuse w).cfg = s.cfg := rfl
@[simp] theorem State.refuse_clkDrv (w : ReqWord) : (s.refuse w).clkDrv = s.clkDrv := rfl
@[simp] theorem State.refuse_datDrv (w : ReqWord) : (s.refuse w).datDrv = s.datDrv := rfl
@[simp] theorem State.refuse_datPrev (w : ReqWord) : (s.refuse w).datPrev = s.datPrev := rfl
@[simp] theorem State.refuse_ie (w : ReqWord) : (s.refuse w).ie = s.ie := rfl
@[simp] theorem State.refuse_busy (w : ReqWord) : (s.refuse w).busy = s.busy := rfl
@[simp] theorem State.refuse_hostTalking (w : ReqWord) : (s.refuse w).hostTalking = s.hostTalking := rfl
@[simp] theorem State.refuse_lastSent (w : ReqWord) : (s.refuse w).lastSent = s.lastSent := rfl
@[simp] theorem State.refuse_shreg (w : ReqWord) : (s.refuse w).shreg = s.shreg := rfl
@[simp] theorem State.refuse_par (w : ReqWord) : (s.refuse w).par = s.par := rfl
@[simp] theorem State.refuse_bitn (w : ReqWord) : (s.refuse w).bitn = s.bitn := rfl
@[simp] theorem State.refuse_tries (w : ReqWord) : (s.refuse w).tries = s.tries := rfl
@[simp] theorem State.refuse_ok (w : ReqWord) : (s.refuse w).ok = s.ok := rfl
@[simp] theorem State.refuse_seq (w : ReqWord) : (s.refuse w).seq = s.seq := rfl
@[simp] theorem State.refuse_req (w : ReqWord) : (s.refuse w).req = s.req := rfl
@[simp] theorem State.refuse_result (w : ReqWord) : (s.refuse w).result = s.result := rfl
@[simp] theorem State.refuse_events (w : ReqWord) : (s.refuse w).events = s.events := rfl
@[simp] theorem State.refuse_refused (w : ReqWord) : (s.refuse w).refused = w :: s.refused := rfl
@[simp] theorem State.refuse_now (w : ReqWord) : (s.refuse w).now = s.now := rfl
@[simp] theorem State.refuse_host (w : ReqWord) : (s.refuse w).host = s.host := rfl
@[simp] theorem State.refuse_consumer (w : ReqWord) : (s.refuse w).consumer = s.consumer := rfl
@[simp] theorem State.refuse_trace (w : ReqWord) : (s.refuse w).trace = s.trace := rfl
@[simp] theorem State.refuse_draws (w : ReqWord) : (s.refuse w).draws = s.draws := rfl

/-! ### `State.takeRequest` -/

@[simp] theorem State.takeRequest_cfg : (s.takeRequest).cfg = s.cfg := rfl
@[simp] theorem State.takeRequest_clkDrv : (s.takeRequest).clkDrv = s.clkDrv := rfl
@[simp] theorem State.takeRequest_datDrv : (s.takeRequest).datDrv = s.datDrv := rfl
@[simp] theorem State.takeRequest_datPrev : (s.takeRequest).datPrev = s.datPrev := rfl
@[simp] theorem State.takeRequest_ie : (s.takeRequest).ie = s.ie := rfl
@[simp] theorem State.takeRequest_busy : (s.takeRequest).busy = s.busy := rfl
@[simp] theorem State.takeRequest_hostTalking : (s.takeRequest).hostTalking = s.hostTalking := rfl
@[simp] theorem State.takeRequest_lastSent : (s.takeRequest).lastSent = s.lastSent := rfl
@[simp] theorem State.takeRequest_shreg : (s.takeRequest).shreg = s.shreg := rfl
@[simp] theorem State.takeRequest_par : (s.takeRequest).par = s.par := rfl
@[simp] theorem State.takeRequest_bitn : (s.takeRequest).bitn = s.bitn := rfl
@[simp] theorem State.takeRequest_tries : (s.takeRequest).tries = s.tries := rfl
@[simp] theorem State.takeRequest_ok : (s.takeRequest).ok = s.ok := rfl
@[simp] theorem State.takeRequest_seq : (s.takeRequest).seq = s.seq := rfl
@[simp] theorem State.takeRequest_req : (s.takeRequest).req = none := rfl
@[simp] theorem State.takeRequest_result : (s.takeRequest).result = s.result := rfl
@[simp] theorem State.takeRequest_events : (s.takeRequest).events = s.events := rfl
@[simp] theorem State.takeRequest_refused : (s.takeRequest).refused = s.refused := rfl
@[simp] theorem State.takeRequest_now : (s.takeRequest).now = s.now := rfl
@[simp] theorem State.takeRequest_host : (s.takeRequest).host = s.host := rfl
@[simp] theorem State.takeRequest_consumer : (s.takeRequest).consumer = s.consumer := rfl
@[simp] theorem State.takeRequest_trace : (s.takeRequest).trace = s.trace := rfl
@[simp] theorem State.takeRequest_draws : (s.takeRequest).draws = s.draws := rfl

/-! ### `State.present` -/

@[simp] theorem State.present_cfg (w : ReqWord) : (s.present w).cfg = s.cfg := rfl
@[simp] theorem State.present_clkDrv (w : ReqWord) : (s.present w).clkDrv = s.clkDrv := rfl
@[simp] theorem State.present_datDrv (w : ReqWord) : (s.present w).datDrv = s.datDrv := rfl
@[simp] theorem State.present_datPrev (w : ReqWord) : (s.present w).datPrev = s.datPrev := rfl
@[simp] theorem State.present_ie (w : ReqWord) : (s.present w).ie = s.ie := rfl
@[simp] theorem State.present_busy (w : ReqWord) : (s.present w).busy = s.busy := rfl
@[simp] theorem State.present_hostTalking (w : ReqWord) : (s.present w).hostTalking = s.hostTalking := rfl
@[simp] theorem State.present_lastSent (w : ReqWord) : (s.present w).lastSent = s.lastSent := rfl
@[simp] theorem State.present_shreg (w : ReqWord) : (s.present w).shreg = s.shreg := rfl
@[simp] theorem State.present_par (w : ReqWord) : (s.present w).par = s.par := rfl
@[simp] theorem State.present_bitn (w : ReqWord) : (s.present w).bitn = s.bitn := rfl
@[simp] theorem State.present_tries (w : ReqWord) : (s.present w).tries = s.tries := rfl
@[simp] theorem State.present_ok (w : ReqWord) : (s.present w).ok = s.ok := rfl
@[simp] theorem State.present_seq (w : ReqWord) : (s.present w).seq = s.seq := rfl
@[simp] theorem State.present_req (w : ReqWord) : (s.present w).req = some w := rfl
@[simp] theorem State.present_result (w : ReqWord) : (s.present w).result = s.result := rfl
@[simp] theorem State.present_events (w : ReqWord) : (s.present w).events = s.events := rfl
@[simp] theorem State.present_refused (w : ReqWord) : (s.present w).refused = s.refused := rfl
@[simp] theorem State.present_now (w : ReqWord) : (s.present w).now = s.now := rfl
@[simp] theorem State.present_host (w : ReqWord) : (s.present w).host = s.host := rfl
@[simp] theorem State.present_consumer (w : ReqWord) : (s.present w).consumer = s.consumer := rfl
@[simp] theorem State.present_trace (w : ReqWord) : (s.present w).trace = s.trace := rfl
@[simp] theorem State.present_draws (w : ReqWord) : (s.present w).draws = s.draws := rfl

/-! ### `State.takeFlag` -/

@[simp] theorem State.takeFlag_cfg : (s.takeFlag).cfg = s.cfg := rfl
@[simp] theorem State.takeFlag_clkDrv : (s.takeFlag).clkDrv = s.clkDrv := rfl
@[simp] theorem State.takeFlag_datDrv : (s.takeFlag).datDrv = s.datDrv := rfl
@[simp] theorem State.takeFlag_datPrev : (s.takeFlag).datPrev = s.datPrev := rfl
@[simp] theorem State.takeFlag_ie : (s.takeFlag).ie = s.ie := rfl
@[simp] theorem State.takeFlag_busy : (s.takeFlag).busy = s.busy := rfl
@[simp] theorem State.takeFlag_hostTalking : (s.takeFlag).hostTalking = false := rfl
@[simp] theorem State.takeFlag_lastSent : (s.takeFlag).lastSent = s.lastSent := rfl
@[simp] theorem State.takeFlag_shreg : (s.takeFlag).shreg = s.shreg := rfl
@[simp] theorem State.takeFlag_par : (s.takeFlag).par = s.par := rfl
@[simp] theorem State.takeFlag_bitn : (s.takeFlag).bitn = s.bitn := rfl
@[simp] theorem State.takeFlag_tries : (s.takeFlag).tries = s.tries := rfl
@[simp] theorem State.takeFlag_ok : (s.takeFlag).ok = s.ok := rfl
@[simp] theorem State.takeFlag_seq : (s.takeFlag).seq = s.seq := rfl
@[simp] theorem State.takeFlag_req : (s.takeFlag).req = s.req := rfl
@[simp] theorem State.takeFlag_result : (s.takeFlag).result = s.result := rfl
@[simp] theorem State.takeFlag_events : (s.takeFlag).events = s.events := rfl
@[simp] theorem State.takeFlag_refused : (s.takeFlag).refused = s.refused := rfl
@[simp] theorem State.takeFlag_now : (s.takeFlag).now = s.now := rfl
@[simp] theorem State.takeFlag_host : (s.takeFlag).host = s.host := rfl
@[simp] theorem State.takeFlag_consumer : (s.takeFlag).consumer = s.consumer := rfl
@[simp] theorem State.takeFlag_trace : (s.takeFlag).trace = ⟨s.now, .tookFlag s.hostTalking⟩ :: s.trace := rfl
@[simp] theorem State.takeFlag_draws : (s.takeFlag).draws = s.draws := rfl

/-! ### `State.readLastSent` -/

@[simp] theorem State.readLastSent_cfg : (s.readLastSent).cfg = s.cfg := rfl
@[simp] theorem State.readLastSent_clkDrv : (s.readLastSent).clkDrv = s.clkDrv := rfl
@[simp] theorem State.readLastSent_datDrv : (s.readLastSent).datDrv = s.datDrv := rfl
@[simp] theorem State.readLastSent_datPrev : (s.readLastSent).datPrev = s.datPrev := rfl
@[simp] theorem State.readLastSent_ie : (s.readLastSent).ie = s.ie := rfl
@[simp] theorem State.readLastSent_busy : (s.readLastSent).busy = s.busy := rfl
@[simp] theorem State.readLastSent_hostTalking : (s.readLastSent).hostTalking = s.hostTalking := rfl
@[simp] theorem State.readLastSent_lastSent : (s.readLastSent).lastSent = s.lastSent := rfl
@[simp] theorem State.readLastSent_shreg : (s.readLastSent).shreg = s.shreg := rfl
@[simp] theorem State.readLastSent_par : (s.readLastSent).par = s.par := rfl
@[simp] theorem State.readLastSent_bitn : (s.readLastSent).bitn = s.bitn := rfl
@[simp] theorem State.readLastSent_tries : (s.readLastSent).tries = s.tries := rfl
@[simp] theorem State.readLastSent_ok : (s.readLastSent).ok = s.ok := rfl
@[simp] theorem State.readLastSent_seq : (s.readLastSent).seq = s.seq := rfl
@[simp] theorem State.readLastSent_req : (s.readLastSent).req = s.req := rfl
@[simp] theorem State.readLastSent_result : (s.readLastSent).result = s.result := rfl
@[simp] theorem State.readLastSent_events : (s.readLastSent).events = s.events := rfl
@[simp] theorem State.readLastSent_refused : (s.readLastSent).refused = s.refused := rfl
@[simp] theorem State.readLastSent_now : (s.readLastSent).now = s.now := rfl
@[simp] theorem State.readLastSent_host : (s.readLastSent).host = s.host := rfl
@[simp] theorem State.readLastSent_consumer : (s.readLastSent).consumer = s.consumer := rfl
@[simp] theorem State.readLastSent_trace : (s.readLastSent).trace = ⟨s.now, .readLastSent s.lastSent⟩ :: s.trace := rfl
@[simp] theorem State.readLastSent_draws : (s.readLastSent).draws = s.draws := rfl

end Sys2Proof.Machine
end

