-- ==== Sys2Proof/Laws/Time.lean ====
section
/-! SUPPORT. What the passing of time does (R9, R35, R104, R133): the closed form of `n` microseconds, and the lengths of
waits. -/

namespace Sys2Proof.Machine

variable (s : State) (n m : Nat)

/-! ### Line levels of a state -/

theorem State.clkLineAt_now : s.clkLineAt s.now = s.clkLine := rfl

theorem State.datLineAt_now : s.datLineAt s.now = s.datLine := rfl

theorem State.idleAt_now : s.idleAt s.now = s.busIdle := rfl

theorem State.hostClkDrv_congr {s t : State} (h : t.host = s.host) (u : Nat) : t.hostClkDrv u = s.hostClkDrv u := by
  simp only [State.hostClkDrv, h]

theorem State.hostDatDrv_congr {s t : State} (h : t.host = s.host) (u : Nat) : t.hostDatDrv u = s.hostDatDrv u := by
  simp only [State.hostDatDrv, h]

theorem State.datLineAt_congr {s t : State} (h : t.host = s.host) (hd : t.datDrv = s.datDrv) (u : Nat) :
    t.datLineAt u = s.datLineAt u := by
  simp only [State.datLineAt, State.hostDatDrv_congr h, hd]

theorem State.clkLineAt_congr {s t : State} (h : t.host = s.host) (hc : t.clkDrv = s.clkDrv) (u : Nat) :
    t.clkLineAt u = s.clkLineAt u := by
  simp only [State.clkLineAt, State.hostClkDrv_congr h, hc]

/-! ### Elapsed microseconds -/

@[simp] theorem State.elapse_zero : s.elapse 0 = s := rfl

theorem State.elapse_succ : s.elapse (n + 1) = (s.elapse n).tick := by
  induction n generalizing s with
  | zero => rfl
  | succ n ih => exact ih s.tick

theorem State.elapse_add : s.elapse (n + m) = (s.elapse n).elapse m := by
  induction m with
  | zero => rfl
  | succ m ih => rw [← Nat.add_assoc, State.elapse_succ, ih, ← State.elapse_succ]

/-- The closed form of `n` microseconds: time advances, `dat_prev` follows the line, and `host_talking` is set if the
interrupt is enabled and some microsecond triggers it. -/
theorem State.elapse_eq : s.elapse n =
    { s with
      now := s.now + n
      datPrev := s.datPrevAt (s.now + n)
      hostTalking := s.hostTalking || (s.ie && (List.range n).any (fun i => s.trigAt (s.now + i))) } := by
  induction n with
  | zero => simp [State.datPrevAt]
  | succ n ih =>
    rw [State.elapse_succ, ih, List.range_succ, List.any_append]
    simp only [State.tick, State.interrupt, State.datLine, State.hostDatDrv, State.trigAt, State.datPrevAt,
      State.datLineAt, List.any_cons, List.any_nil, Bool.or_false]
    congr 1
    · rw [if_neg (by omega)]; rfl
    · cases s.hostTalking <;> cases s.ie <;> simp

@[simp] theorem State.elapse_now : (s.elapse n).now = s.now + n := by rw [State.elapse_eq]
@[simp] theorem State.elapse_cfg : (s.elapse n).cfg = s.cfg := by rw [State.elapse_eq]
@[simp] theorem State.elapse_clkDrv : (s.elapse n).clkDrv = s.clkDrv := by rw [State.elapse_eq]
@[simp] theorem State.elapse_datDrv : (s.elapse n).datDrv = s.datDrv := by rw [State.elapse_eq]
@[simp] theorem State.elapse_ie : (s.elapse n).ie = s.ie := by rw [State.elapse_eq]
@[simp] theorem State.elapse_busy : (s.elapse n).busy = s.busy := by rw [State.elapse_eq]
@[simp] theorem State.elapse_lastSent : (s.elapse n).lastSent = s.lastSent := by rw [State.elapse_eq]
@[simp] theorem State.elapse_shreg : (s.elapse n).shreg = s.shreg := by rw [State.elapse_eq]
@[simp] theorem State.elapse_par : (s.elapse n).par = s.par := by rw [State.elapse_eq]
@[simp] theorem State.elapse_bitn : (s.elapse n).bitn = s.bitn := by rw [State.elapse_eq]
@[simp] theorem State.elapse_tries : (s.elapse n).tries = s.tries := by rw [State.elapse_eq]
@[simp] theorem State.elapse_ok : (s.elapse n).ok = s.ok := by rw [State.elapse_eq]
@[simp] theorem State.elapse_seq : (s.elapse n).seq = s.seq := by rw [State.elapse_eq]
@[simp] theorem State.elapse_req : (s.elapse n).req = s.req := by rw [State.elapse_eq]
@[simp] theorem State.elapse_result : (s.elapse n).result = s.result := by rw [State.elapse_eq]
@[simp] theorem State.elapse_events : (s.elapse n).events = s.events := by rw [State.elapse_eq]
@[simp] theorem State.elapse_refused : (s.elapse n).refused = s.refused := by rw [State.elapse_eq]
@[simp] theorem State.elapse_host : (s.elapse n).host = s.host := by rw [State.elapse_eq]
@[simp] theorem State.elapse_consumer : (s.elapse n).consumer = s.consumer := by rw [State.elapse_eq]
@[simp] theorem State.elapse_trace : (s.elapse n).trace = s.trace := by rw [State.elapse_eq]
@[simp] theorem State.elapse_draws : (s.elapse n).draws = s.draws := by rw [State.elapse_eq]

theorem State.elapse_datPrev : (s.elapse n).datPrev = s.datPrevAt (s.now + n) := by rw [State.elapse_eq]

theorem State.elapse_hostTalking : (s.elapse n).hostTalking =
    (s.hostTalking || (s.ie && (List.range n).any (fun i => s.trigAt (s.now + i)))) := by rw [State.elapse_eq]

/-- While the interrupt is masked, no passing of time sets `host_talking` (R104). -/
theorem State.elapse_hostTalking_masked (h : s.ie = false) : (s.elapse n).hostTalking = s.hostTalking := by
  simp [State.elapse_hostTalking, h]

/-- Two states that agree on all that the passing of time reads. -/
structure SameTime (s t : State) : Prop where
  cfg : t.cfg = s.cfg
  ie : t.ie = s.ie
  datDrv : t.datDrv = s.datDrv
  datPrev : t.datPrev = s.datPrev
  hostTalking : t.hostTalking = s.hostTalking
  now : t.now = s.now
  host : t.host = s.host

/-- Such states agree on it after any time. -/
theorem SameTime.elapse {s t : State} (h : SameTime s t) (n : Nat) : SameTime (s.elapse n) (t.elapse n) := by
  have hl : t.datLineAt = s.datLineAt := funext (State.datLineAt_congr h.host h.datDrv)
  have hp : t.datPrevAt = s.datPrevAt := by funext u; simp only [State.datPrevAt, hl, h.now, h.datPrev]
  have ht : t.trigAt = s.trigAt := by funext u; simp only [State.trigAt, hl, hp, h.cfg]
  constructor <;> simp only [State.elapse_eq, h.cfg, h.ie, h.datDrv, h.hostTalking, h.now, h.host, hp, ht]

/-! ### Waits -/

theorem waitLength_exact {c : Config} (h : c.timingMode = .exact) (d k : Nat) : waitLength c d k = k := by
  simp [waitLength, h]

/-- R133: a wait lasts its nominal time or more, in both modes. -/
theorem le_waitLength (c : Config) (d k : Nat) : k ≤ waitLength c d k := by
  unfold waitLength; cases c.timingMode <;> simp

theorem pulseLength_exact {c : Config} (h : c.timingMode = .exact) (d : Nat) : pulseLength c d = c.tPulse := by
  simp [pulseLength, waitLength_exact h, Config.tPulse]

theorem le_pulseLength (c : Config) (d : Nat) : c.tPulse ≤ pulseLength c d :=
  Nat.add_le_add (Nat.add_le_add (le_waitLength ..) (le_waitLength ..)) (le_waitLength ..)

theorem pulseStart_exact {c : Config} (h : c.timingMode = .exact) (d t k : Nat) :
    pulseStart c d t k = t + k * c.tPulse := by
  induction k with
  | zero => simp [pulseStart]
  | succ k ih => rw [pulseStart, ih, pulseLength_exact h, Nat.succ_mul, Nat.add_assoc]

theorem checkTime_exact {c : Config} (h : c.timingMode = .exact) (d t k : Nat) :
    checkTime c d t k = t + k * c.tRetry := by
  induction k with
  | zero => simp [checkTime]
  | succ k ih => rw [checkTime, ih, waitLength_exact h, Nat.succ_mul, Nat.add_assoc]

end Sys2Proof.Machine
end

