-- ==== Sys2Proof/Laws/Run.lean ====
section
/-! SUPPORT. Running an operation's code (R27): straight-line steps are applied one after another, and each request ends in
the state its rule's pseudocode gives. -/

namespace Sys2Proof.Machine

/-! ### Steps do not read the sequencer's position -/

theorem State.elapse_goto (s : State) (op : Instr) (k n : Nat) : (s.goto op k).elapse n = (s.elapse n).goto op k := by
  induction n with
  | zero => rfl
  | succ n ih => rw [State.elapse_succ, State.elapse_succ, ih]; rfl

theorem State.elapse_writeTries (s : State) (k n : Nat) : (s.writeTries k).elapse n = (s.elapse n).writeTries k := by
  induction n with
  | zero => rfl
  | succ n ih => rw [State.elapse_succ, State.elapse_succ, ih]; rfl

theorem Act.apply_goto (a : Act) (s : State) (op : Instr) (k : Nat) :
    a.apply (s.goto op k) = (a.apply s).goto op k := by
  cases a with
  | wait d =>
    simp only [Act.apply, State.wait, State.goto_cfg, State.goto_draws, State.elapse_goto]; rfl
  | dat b => cases b <;> rfl
  | recordSent b => cases b <;> rfl
  | loadShreg b => cases b <;> rfl
  | _ => rfl

theorem applyAll_append (l m : List Act) (s : State) : applyAll (l ++ m) s = applyAll m (applyAll l s) := by
  simp [applyAll]

theorem applyAll_cons (a : Act) (l : List Act) (s : State) : applyAll (a :: l) s = applyAll l (a.apply s) := rfl

@[simp] theorem applyAll_nil (s : State) : applyAll [] s = s := rfl

theorem applyAll_goto (l : List Act) (s : State) (op : Instr) (k : Nat) :
    applyAll l (s.goto op k) = (applyAll l s).goto op k := by
  induction l generalizing s with
  | nil => rfl
  | cons a l ih => rw [applyAll_cons, Act.apply_goto, ih, applyAll_cons]

/-! ### Straight-line steps -/

theorem runSteps_idle {s : State} (h : s.seq = .idle) (n : Nat) : s.runSteps n = s := by
  cases n with
  | zero => rfl
  | succ n => simp only [State.runSteps, h]

/-- The next step of a running operation is performed. -/
theorem runSteps_perform {op : Instr} {k : Nat} {m : MicroOp} (h : (code op)[k]? = some m) (n : Nat) (s : State) :
    (s.goto op k).runSteps (n + 1) = (m.perform op k (s.goto op k)).runSteps n := by
  simp only [State.runSteps, State.seqStep, State.goto_seq, h]

theorem getElem?_of_drop {l : List MicroOp} {k : Nat} {m : MicroOp} {rest : List MicroOp} (h : l.drop k = m :: rest) :
    l[k]? = some m := by
  rw [← List.head?_drop, h]; rfl

theorem drop_succ_of_drop {l : List MicroOp} {k : Nat} {m : MicroOp} {rest : List MicroOp} (h : l.drop k = m :: rest) :
    l.drop (k + 1) = rest := by
  rw [← List.drop_drop, h]; rfl

theorem drop_add_of_drop {l : List MicroOp} {k : Nat} {pre rest : List MicroOp} (h : l.drop k = pre ++ rest) :
    l.drop (k + pre.length) = rest := by
  rw [← List.drop_drop, h, List.drop_left]

/-- Straight-line steps are applied one after another. -/
theorem runSteps_acts {op : Instr} (acts : List Act) {k : Nat} {rest : List MicroOp}
    (h : (code op).drop k = acts.map .act ++ rest) (n : Nat) (s : State) :
    (s.goto op k).runSteps (n + acts.length) = ((applyAll acts s).goto op (k + acts.length)).runSteps n := by
  induction acts generalizing k s with
  | nil => rfl
  | cons a l ih =>
    rw [List.length_cons, ← Nat.add_assoc, runSteps_perform (getElem?_of_drop h)]
    simp only [MicroOp.perform, Act.apply_goto]
    have := ih (k := k + 1) (drop_succ_of_drop h) (a.apply s)
    rw [show (((a.apply s).goto op k).goto op (k + 1)) = (a.apply s).goto op (k + 1) from rfl, this, applyAll_cons,
      Nat.add_assoc, Nat.add_comm 1]

theorem State.finish_goto (s : State) (op : Instr) (k : Nat) (r : Option Result) :
    (s.goto op k).finish r = s.finish r := rfl

theorem State.finishSend_goto (s : State) (op op' : Instr) (k : Nat) (st : SendStatus) :
    (s.goto op' k).finishSend op st = s.finishSend op st := by cases op <;> rfl

@[simp] theorem State.finishSend_seq (s : State) (op : Instr) (st : SendStatus) : (s.finishSend op st).seq = .idle := by
  cases op <;> rfl

/-- A request in `IDLE` runs the operation's steps. -/
theorem request_idle {s : State} (h : s.seq = .idle) (i : Instr) :
    s.request i = .next (State.runSteps (Config.stepBound s.cfg) (s.goto i 0)) := by
  simp only [State.request, h]

/-- A request presented while an operation runs is refused (R28). -/
theorem request_running {s : State} {op : Instr} {k : Nat} (h : s.seq = .run op k) (i : Instr) :
    s.request i = .next (s.refuse (encode i)) := by
  simp only [State.request, h]

/-- An operation that is straight-line steps and then returns nothing. -/
theorem request_acts {i : Instr} {acts : List Act} (hc : code i = acts.map .act ++ [.done]) (hl : acts.length < 256)
    {s : State} (h : s.seq = .idle) : s.request i = .next ((applyAll acts s).finish none) := by
  obtain ⟨n, hn⟩ : ∃ n, Config.stepBound s.cfg = n + 1 + acts.length :=
    ⟨Config.stepBound s.cfg - 1 - acts.length, by unfold Config.stepBound; omega⟩
  have hd : (code i).drop 0 = acts.map .act ++ [.done] := hc
  rw [request_idle h, hn, runSteps_acts acts hd, runSteps_perform (getElem?_of_drop (m := .done) (rest := []) (by
      simpa using drop_add_of_drop hd))]
  simp only [MicroOp.perform, State.finish_goto]
  rw [runSteps_idle rfl]

theorem request_pulse {s : State} (h : s.seq = .idle) :
    s.request .pulse = .next ((applyAll pulseActs s).finish none) :=
  request_acts rfl (by decide) h

theorem request_setbit {s : State} (h : s.seq = .idle) (b : Bool) :
    s.request (.setbit b) = .next ((applyAll (setBitActs (.lit b)) s).finish none) :=
  request_acts rfl (by simp [setBitActs, pulseActs]) h

theorem request_reldat {s : State} (h : s.seq = .idle) :
    s.request .reldat = .next ((s.driveDat false).finish none) :=
  request_acts (acts := [.releaseDat]) rfl (by decide) h

theorem request_setie {s : State} (h : s.seq = .idle) (e : Bool) :
    s.request (.setie e) = .next ((s.writeIe e).finish none) :=
  request_acts (acts := [.setIe e]) rfl (by simp) h

theorem request_readbit {s : State} (h : s.seq = .idle) :
    s.request .readbit = .next (s.sampleDat.finish (some (.bit s.datLine))) := by
  rw [request_idle h, show Config.stepBound s.cfg = Config.stepBound s.cfg - 1 + 1 by unfold Config.stepBound; omega,
    runSteps_perform (m := .readBit) rfl, runSteps_idle rfl]
  rfl

theorem request_readlines {s : State} (h : s.seq = .idle) :
    s.request .readlines = .next (s.sampleClk.sampleDat.finish
      (some (.lines (BitVec.ofBool s.clkLine ++ BitVec.ofBool s.datLine)))) := by
  rw [request_idle h, show Config.stepBound s.cfg = Config.stepBound s.cfg - 1 + 1 by unfold Config.stepBound; omega,
    runSteps_perform (m := .readLines) rfl, runSteps_idle rfl]
  rfl

/-! ### SEND -/

/-- SEND's loop with `n` idle checks left (R84): how it ends, and the state it ends in. -/
def sendFrom (b : ByteSrc) : Nat → State → SendStatus × State
  | 0, s => (.dropped, s)
  | n + 1, s =>
    let checked := (s.sampleClk.sampleDat).writeTries (s.tries + 1)
    if s.busIdle then (.sent, applyAll (frameActs b) checked) else sendFrom b n (checked.wait s.cfg.tRetry)

theorem length_frameActs (b : ByteSrc) : (frameActs b).length = 90 := by
  cases b <;> rfl

theorem runSteps_goto_goto (s : State) (op op' : Instr) (k k' n : Nat) :
    ((s.goto op k).goto op' k').runSteps n = (s.goto op' k').runSteps n := rfl

theorem State.wait_goto (s : State) (op : Instr) (k n : Nat) : (s.goto op k).wait n = (s.wait n).goto op k := by
  simp only [State.wait, State.goto_cfg, State.goto_draws, State.elapse_goto]; rfl

theorem perform_idleCheck_idle {s : State} (h : s.busIdle = true) (op : Instr) (k : Nat) :
    MicroOp.idleCheck.perform op k (s.goto op k) =
      ((s.sampleClk.sampleDat).writeTries (s.tries + 1)).goto op (k + 3) := by
  show ((_ : State).goto op (if s.busIdle then k + 3 else k + 1)) = _
  rw [if_pos h]; rfl

theorem perform_idleCheck_busy {s : State} (h : ¬ s.busIdle = true) (op : Instr) (k : Nat) :
    MicroOp.idleCheck.perform op k (s.goto op k) =
      ((s.sampleClk.sampleDat).writeTries (s.tries + 1)).goto op (k + 1) := by
  show ((_ : State).goto op (if s.busIdle then k + 3 else k + 1)) = _
  rw [if_neg h]; rfl

theorem perform_retryTest_drop {s : State} (h : s.cfg.nAttempts ≤ s.tries) (op : Instr) (k : Nat) :
    MicroOp.retryTest.perform op k (s.goto op k) = s.finishSend op .dropped := by
  show (if s.cfg.nAttempts ≤ s.tries then _ else _) = _
  rw [if_pos h, State.finishSend_goto]

theorem perform_retryTest_again {s : State} (h : ¬ s.cfg.nAttempts ≤ s.tries) (op : Instr) (k : Nat) :
    MicroOp.retryTest.perform op (k + 2) (s.goto op (k + 2)) = s.goto op k := by
  show (if s.cfg.nAttempts ≤ s.tries then _ else _) = _
  rw [if_neg h]; rfl

theorem perform_verdict_ok {s : State} (h : s.ok = true) (op : Instr) (k : Nat) :
    MicroOp.verdict.perform op k (s.goto op k) = (s.emit s.shreg).finish (some (.rxOk s.shreg)) := by
  show (if s.ok = true then _ else _) = _
  rw [if_pos h]; rfl

theorem perform_verdict_bad {s : State} (h : ¬ s.ok = true) (op : Instr) (k : Nat) :
    MicroOp.verdict.perform op k (s.goto op k) = s.goto op (k + 1) := by
  show (if s.ok = true then _ else _) = _
  rw [if_neg h]; rfl

theorem perform_wait (d : Delay) (s : State) (op : Instr) (k : Nat) :
    (MicroOp.act (.wait d)).perform op k (s.goto op k) = (s.wait (d.nominal s.cfg)).goto op (k + 1) := by
  simp only [MicroOp.perform, Act.apply, State.goto_cfg, State.wait_goto]; rfl

/-- The steps from SEND's idle check on run SEND's loop, whatever operation they belong to. -/
theorem runSteps_send {op : Instr} {b : ByteSrc} {k : Nat}
    (h : (code op).drop k = .idleCheck :: .act (.wait .retry) :: .retryTest :: ((frameActs b).map .act ++ [.sent]))
    (n : Nat) (s : State) (hn : s.tries + (n + 1) = s.cfg.nAttempts) (m : Nat) (hm : 3 * (n + 1) + 91 ≤ m) :
    (s.goto op k).runSteps m = (sendFrom b (n + 1) s).2.finishSend op (sendFrom b (n + 1) s).1 := by
  have h1 := drop_succ_of_drop h
  have h2 := drop_succ_of_drop h1
  have h3 := drop_succ_of_drop h2
  induction n generalizing s m with
  | zero =>
    by_cases hi : s.busIdle = true
    · obtain ⟨m, rfl⟩ : ∃ m', m = m' + 1 + (frameActs b).length + 1 :=
        ⟨m - 92, by rw [length_frameActs]; omega⟩
      have h4 := drop_add_of_drop h3
      rw [List.length_map] at h4
      rw [runSteps_perform (getElem?_of_drop h), perform_idleCheck_idle hi, runSteps_acts (frameActs b) h3,
        runSteps_perform (getElem?_of_drop h4)]
      simp only [MicroOp.perform, State.finishSend_goto]
      rw [runSteps_idle (by simp)]
      simp only [sendFrom, hi, if_true]
    · obtain ⟨m, rfl⟩ : ∃ m', m = m' + 1 + 1 + 1 := ⟨m - 3, by omega⟩
      rw [runSteps_perform (getElem?_of_drop h), perform_idleCheck_busy hi, runSteps_perform (getElem?_of_drop h1),
        perform_wait, runSteps_perform (getElem?_of_drop h2),
        perform_retryTest_drop (by simp [State.wait]; omega), runSteps_idle (by simp)]
      simp only [sendFrom, if_neg hi]; rfl
  | succ n ih =>
    by_cases hi : s.busIdle = true
    · obtain ⟨m, rfl⟩ : ∃ m', m = m' + 1 + (frameActs b).length + 1 :=
        ⟨m - 92, by rw [length_frameActs]; omega⟩
      have h4 := drop_add_of_drop h3
      rw [List.length_map] at h4
      rw [runSteps_perform (getElem?_of_drop h), perform_idleCheck_idle hi, runSteps_acts (frameActs b) h3,
        runSteps_perform (getElem?_of_drop h4)]
      simp only [MicroOp.perform, State.finishSend_goto]
      rw [runSteps_idle (by simp), sendFrom]
      simp only [hi, if_true]
    · obtain ⟨m, rfl⟩ : ∃ m', m = m' + 1 + 1 + 1 := ⟨m - 3, by omega⟩
      rw [runSteps_perform (getElem?_of_drop h), perform_idleCheck_busy hi, runSteps_perform (getElem?_of_drop h1),
        perform_wait, runSteps_perform (getElem?_of_drop h2),
        perform_retryTest_again (by simp [State.wait]; omega), ih _ (by simp [State.wait]; omega) _ (by omega)]
      conv_rhs => rw [sendFrom]
      simp only [if_neg hi]; rfl

/-- SEND (R84): `tries <- 0`, then the loop. -/
theorem request_send {s : State} (h : s.seq = .idle) (hN : 0 < s.cfg.nAttempts) (b : Byte) :
    s.request (.send b) =
      .next ((sendFrom (.lit b) s.cfg.nAttempts (s.writeTries 0)).2.finishSend (.send b)
        (sendFrom (.lit b) s.cfg.nAttempts (s.writeTries 0)).1) := by
  obtain ⟨n, hn⟩ : ∃ n, s.cfg.nAttempts = n + 1 := ⟨_, (Nat.succ_pred_eq_of_pos hN).symm⟩
  rw [request_idle h, show Config.stepBound s.cfg = Config.stepBound s.cfg - 1 + 1 by unfold Config.stepBound; omega,
    runSteps_perform (m := .act .clearTries) rfl]
  rw [show MicroOp.perform (.act .clearTries) (.send b) 0 (s.goto (.send b) 0) = (s.writeTries 0).goto (.send b) 1 from rfl,
    runSteps_send (op := .send b) (b := .lit b) (k := 1) rfl n (s.writeTries 0) (by simpa using by omega)
      _ (by unfold Config.stepBound; omega), hn]

/-! ### RECV -/

theorem length_recvActs : recvActs.length = 81 := rfl

@[simp] theorem applyAll_cfg (l : List Act) (s : State) : (applyAll l s).cfg = s.cfg := by
  induction l generalizing s with
  | nil => rfl
  | cons a l ih => rw [applyAll_cons, ih]; cases a <;> simp [Act.apply, State.wait]

/-- RECV (R90 to R92): the nine samples and eleven pulses; then the byte is delivered, or SEND(RESEND_REQ) follows. -/
theorem request_recv {s : State} (h : s.seq = .idle) (hN : 0 < s.cfg.nAttempts) :
    s.request .recv =
      .next (if (applyAll recvActs s).ok = true
        then ((applyAll recvActs s).emit (applyAll recvActs s).shreg).finish (some (.rxOk (applyAll recvActs s).shreg))
        else (sendFrom .resend s.cfg.nAttempts ((applyAll recvActs s).writeTries 0)).2.finishSend .recv
          (sendFrom .resend s.cfg.nAttempts ((applyAll recvActs s).writeTries 0)).1) := by
  obtain ⟨n, hn⟩ : ∃ n, s.cfg.nAttempts = n + 1 := ⟨_, (Nat.succ_pred_eq_of_pos hN).symm⟩
  obtain ⟨m, hm⟩ : ∃ m, Config.stepBound s.cfg = m + 1 + 1 + recvActs.length :=
    ⟨Config.stepBound s.cfg - 83, by rw [length_recvActs]; unfold Config.stepBound; omega⟩
  have hs : sendCode .resend = .act .clearTries :: .idleCheck :: .act (.wait .retry) :: .retryTest ::
      ((frameActs .resend).map .act ++ [.sent]) := rfl
  have h0 : (code .recv).drop 0 = recvActs.map .act ++ (.verdict :: sendCode .resend) := rfl
  rw [hs] at h0
  have h1 := drop_add_of_drop h0
  have h2 := drop_succ_of_drop h1
  have h3 := drop_succ_of_drop h2
  rw [List.length_map] at h1 h2 h3
  rw [request_idle h, hm, runSteps_acts recvActs h0]
  have hu : (applyAll recvActs s).cfg = s.cfg := applyAll_cfg _ _
  generalize applyAll recvActs s = u at hu ⊢
  generalize 0 + recvActs.length = k at h1 h2 h3
  by_cases hok : u.ok = true
  · rw [runSteps_perform (getElem?_of_drop h1), perform_verdict_ok hok, if_pos hok, runSteps_idle rfl]
  · rw [runSteps_perform (getElem?_of_drop h1), perform_verdict_bad hok, if_neg hok,
      runSteps_perform (getElem?_of_drop h2),
      show MicroOp.perform (.act .clearTries) .recv (k + 1) (u.goto .recv (k + 1)) =
        (u.writeTries 0).goto .recv (k + 1 + 1) from rfl,
      runSteps_send h3 n (u.writeTries 0) (by simp [hu, hn]) m
        (by rw [length_recvActs] at hm; unfold Config.stepBound at hm; omega), hn]

end Sys2Proof.Machine
end

