-- ==== Sys2Proof/Laws/Frame.lean ====
section
/-! SUPPORT. What a pulse, a SETBIT, a frame and a receive do to every field (R70, R71, R84, R90). -/

namespace Sys2Proof.Machine

/-! ### One pulse -/

/-- A pulse lets its length pass, leaves the clock released, and records its two clock drives (R70). -/
theorem pulse_eq (s : State) : applyAll pulseActs s =
    { s.elapse (pulseLength s.cfg s.draws) with
      clkDrv := false
      draws := s.draws + 3
      trace := (pulseRecord s.cfg s.draws s.now).reverse ++ s.trace } := by
  simp only [pulseActs, applyAll_cons, applyAll_nil, Act.apply, Delay.nominal, State.wait, State.driveClk_cfg,
    State.driveClk_draws, State.countDraw_cfg, State.countDraw_draws, State.elapse_cfg, State.elapse_draws]
  generalize ha : waitLength s.cfg s.draws s.cfg.tSettle1 = a
  generalize hb : waitLength s.cfg (s.draws + 1) s.cfg.tHold = b
  generalize hc : waitLength s.cfg (s.draws + 1 + 1) s.cfg.tSettle2 = c
  have hl : pulseLength s.cfg s.draws = a + b + c := by simp only [pulseLength, ← ha, ← hb, ← hc]
  have h1 : SameTime (s.elapse a) ((s.elapse a).countDraw.driveClk true) := ⟨rfl, rfl, rfl, rfl, rfl, rfl, rfl⟩
  have h2 := h1.elapse b
  rw [← State.elapse_add] at h2
  have h3 : SameTime (s.elapse (a + b)) ((((s.elapse a).countDraw.driveClk true).elapse b).countDraw.driveClk false) :=
    ⟨h2.cfg, h2.ie, h2.datDrv, h2.datPrev, h2.hostTalking, h2.now, h2.host⟩
  have h4 := h3.elapse c
  rw [← State.elapse_add, ← hl] at h4
  apply State.ext <;> simp [h4.datPrev, h4.hostTalking, pulseRecord, ha, hb, hl, Nat.add_assoc]

variable (s : State)

@[simp] theorem pulse_cfg : (applyAll pulseActs s).cfg = s.cfg := by rw [pulse_eq]; simp
@[simp] theorem pulse_clkDrv : (applyAll pulseActs s).clkDrv = false := by rw [pulse_eq]
@[simp] theorem pulse_datDrv : (applyAll pulseActs s).datDrv = s.datDrv := by rw [pulse_eq]; simp
@[simp] theorem pulse_ie : (applyAll pulseActs s).ie = s.ie := by rw [pulse_eq]; simp
@[simp] theorem pulse_busy : (applyAll pulseActs s).busy = s.busy := by rw [pulse_eq]; simp
@[simp] theorem pulse_lastSent : (applyAll pulseActs s).lastSent = s.lastSent := by rw [pulse_eq]; simp
@[simp] theorem pulse_shreg : (applyAll pulseActs s).shreg = s.shreg := by rw [pulse_eq]; simp
@[simp] theorem pulse_par : (applyAll pulseActs s).par = s.par := by rw [pulse_eq]; simp
@[simp] theorem pulse_bitn : (applyAll pulseActs s).bitn = s.bitn := by rw [pulse_eq]; simp
@[simp] theorem pulse_tries : (applyAll pulseActs s).tries = s.tries := by rw [pulse_eq]; simp
@[simp] theorem pulse_ok : (applyAll pulseActs s).ok = s.ok := by rw [pulse_eq]; simp
@[simp] theorem pulse_seq : (applyAll pulseActs s).seq = s.seq := by rw [pulse_eq]; simp
@[simp] theorem pulse_req : (applyAll pulseActs s).req = s.req := by rw [pulse_eq]; simp
@[simp] theorem pulse_result : (applyAll pulseActs s).result = s.result := by rw [pulse_eq]; simp
@[simp] theorem pulse_events : (applyAll pulseActs s).events = s.events := by rw [pulse_eq]; simp
@[simp] theorem pulse_refused : (applyAll pulseActs s).refused = s.refused := by rw [pulse_eq]; simp
@[simp] theorem pulse_now : (applyAll pulseActs s).now = s.now + pulseLength s.cfg s.draws := by rw [pulse_eq]; simp
@[simp] theorem pulse_host : (applyAll pulseActs s).host = s.host := by rw [pulse_eq]; simp
@[simp] theorem pulse_consumer : (applyAll pulseActs s).consumer = s.consumer := by rw [pulse_eq]; simp
@[simp] theorem pulse_draws : (applyAll pulseActs s).draws = s.draws + 3 := by rw [pulse_eq]
@[simp] theorem pulse_trace : (applyAll pulseActs s).trace =
    (pulseRecord s.cfg s.draws s.now).reverse ++ s.trace := by rw [pulse_eq]

theorem pulse_hostTalking : (applyAll pulseActs s).hostTalking =
    (s.elapse (pulseLength s.cfg s.draws)).hostTalking := by rw [pulse_eq]

theorem pulse_datPrev : (applyAll pulseActs s).datPrev =
    (s.elapse (pulseLength s.cfg s.draws)).datPrev := by rw [pulse_eq]

/-- A pulse with the interrupt masked never sets `host_talking` (R99). -/
theorem pulse_hostTalking_masked {s : State} (h : s.ie = false) :
    (applyAll pulseActs s).hostTalking = s.hostTalking := by
  rw [pulse_hostTalking, State.elapse_hostTalking_masked _ _ h]

/-- SETBIT b drives the data line and makes a pulse (R71). -/
theorem setBit_eq (b : BitSrc) : applyAll (setBitActs b) s = applyAll pulseActs (s.driveDat (!b.value s)) := rfl

/-! ### A frame -/

theorem setBit_lit (b : Bool) : applyAll (setBitActs (.lit b)) s = applyAll pulseActs (s.driveDat (!b)) := rfl

theorem setBit_parity : applyAll (setBitActs .parity) s = applyAll pulseActs (s.driveDat (!s.par)) := rfl

/-! ### The bits of a frame word -/

theorem frameSlot_append (seed : Bool) (b : Byte) (i : Nat) : frameSlot seed b i =
    if i < 1 then (BitVec.ofBool false).getLsbD i else if i - 1 < 8 then b.getLsbD (i - 1)
    else if i - 1 - 8 < 1 then (BitVec.ofBool (frameParity seed b)).getLsbD (i - 1 - 8)
    else (BitVec.ofBool true).getLsbD (i - 1 - 8 - 1) :=
  BitVec.getLsbD_append.trans (by rw [BitVec.getLsbD_append, BitVec.getLsbD_append])

theorem frameSlot_start (seed : Bool) (b : Byte) : frameSlot seed b 0 = false := by simp [frameSlot_append]

theorem frameSlot_data (seed : Bool) (b : Byte) {i : Nat} (h : i < 8) : frameSlot seed b (i + 1) = b.getLsbD i := by
  simp [frameSlot_append, h]

theorem frameSlot_parity (seed : Bool) (b : Byte) : frameSlot seed b 9 = frameParity seed b := by
  simp [frameSlot_append]

theorem frameSlot_stop (seed : Bool) (b : Byte) : frameSlot seed b 10 = true := by simp [frameSlot_append]

/-! ### The slots of a frame -/

/-- What a frame carrying `b` that started in `s` has done after its first `i` slots, but for the parity and the count. -/
structure SlotsDone (s : State) (b : Byte) (i : Nat) (u : State) : Prop where
  cfg : u.cfg = s.cfg
  ie : u.ie = false
  busy : u.busy = true
  hostTalking : u.hostTalking = s.hostTalking
  lastSent : u.lastSent = b
  shreg : u.shreg = b
  tries : u.tries = s.tries
  ok : u.ok = s.ok
  seq : u.seq = s.seq
  req : u.req = s.req
  result : u.result = s.result
  events : u.events = s.events
  refused : u.refused = s.refused
  now : u.now = pulseStart s.cfg s.draws s.now i
  host : u.host = s.host
  consumer : u.consumer = s.consumer
  draws : u.draws = s.draws + 3 * i
  trace : u.trace = (([⟨s.now, .ie false⟩, ⟨s.now, .busy true⟩, ⟨s.now, .lastSent b⟩] : List Stamped)
    ++ (List.range i).flatMap (fun i =>
        setBitRecord s.cfg (s.draws + 3 * i) (pulseStart s.cfg s.draws s.now i) (frameSlot s.cfg.paritySeed b i))).reverse
    ++ s.trace

/-- One more slot. -/
theorem SlotsDone.slot {s u : State} {b : Byte} {i : Nat} (h : SlotsDone s b i u) {v : Bool}
    (hv : v = frameSlot s.cfg.paritySeed b i) : SlotsDone s b (i + 1) (applyAll pulseActs (u.driveDat (!v))) := by
  have hm : (u.driveDat (!v)).ie = false := by simp [h.ie]
  constructor
  case hostTalking => rw [pulse_hostTalking_masked hm]; simp [h.hostTalking]
  case now => simp [h.now, h.cfg, h.draws, pulseStart]
  case trace =>
    simp [h.trace, h.cfg, h.draws, h.now, List.range_succ, setBitRecord, hv]
  case draws => simp [h.draws]; omega
  all_goals simp [h.cfg, h.ie, h.busy, h.lastSent, h.shreg, h.tries, h.ok, h.seq, h.req, h.result, h.events, h.refused,
    h.host, h.consumer]

theorem SlotsDone.writePar {s u : State} {b : Byte} {i : Nat} (h : SlotsDone s b i u) (v : Bool) :
    SlotsDone s b i (u.writePar v) :=
  ⟨h.cfg, h.ie, h.busy, h.hostTalking, h.lastSent, h.shreg, h.tries, h.ok, h.seq, h.req, h.result, h.events, h.refused,
    h.now, h.host, h.consumer, h.draws, h.trace⟩

theorem SlotsDone.writeBitn {s u : State} {b : Byte} {i : Nat} (h : SlotsDone s b i u) (n : Nat) :
    SlotsDone s b i (u.writeBitn n) :=
  ⟨h.cfg, h.ie, h.busy, h.hostTalking, h.lastSent, h.shreg, h.tries, h.ok, h.seq, h.req, h.result, h.events, h.refused,
    h.now, h.host, h.consumer, h.draws, h.trace⟩

/-- The frame is open: the interrupt is masked, the indicator is on, and the byte is recorded (R84). -/
theorem slotsDone_open (s : State) (src : ByteSrc) :
    SlotsDone s (src.value s) 0 (applyAll (frameOpenActs src) s) := by
  cases src <;> constructor <;>
    simp [frameOpenActs, applyAll_cons, Act.apply, ByteSrc.value, pulseStart]

/-- SEND's data loop: after `n` rounds `n` data slots are sent and counted, and the parity has taken them in (R84). -/
theorem sendLoop_rounds {s u : State} {b : Byte} (h : SlotsDone s b 1 u) (hb : u.bitn = 0) (hp : u.par = s.cfg.paritySeed)
    (n : Nat) (hn : n ≤ 8) :
    SlotsDone s b (1 + n) (applyAll (List.replicate n sendBitActs).flatten u)
      ∧ (applyAll (List.replicate n sendBitActs).flatten u).bitn = n
      ∧ (applyAll (List.replicate n sendBitActs).flatten u).par = parityAfter s.cfg.paritySeed b n := by
  induction n with
  | zero => exact ⟨h, hb, hp⟩
  | succ n ih =>
    obtain ⟨hs, hbn, hpn⟩ := ih (by omega)
    rw [List.replicate_succ', List.flatten_append, applyAll_append]
    generalize applyAll (List.replicate n sendBitActs).flatten u = w at hs hbn hpn ⊢
    have hv : w.shreg.getLsbD w.bitn = frameSlot s.cfg.paritySeed b (1 + n) := by
      rw [hs.shreg, hbn, Nat.add_comm, frameSlot_data _ _ (by omega)]
    have hslot := hs.slot hv
    have he : applyAll [sendBitActs].flatten w =
        ((applyAll pulseActs (w.driveDat (!w.shreg.getLsbD w.bitn))).writePar
          (w.par.xor (w.shreg.getLsbD w.bitn))).writeBitn (w.bitn + 1) := by
      rw [List.flatten_singleton, sendBitActs, applyAll_append, setBit_eq]
      simp only [applyAll_cons, applyAll_nil, Act.apply, BitSrc.value, pulse_par, pulse_shreg, pulse_bitn,
        State.driveDat_par, State.driveDat_shreg, State.driveDat_bitn, State.writePar_bitn]
    rw [he]
    refine ⟨?_, by simp [hbn], ?_⟩
    · rw [← Nat.add_assoc]; exact (hslot.writePar _).writeBitn _
    · simp [hpn, hs.shreg, hbn, parityAfter]

/-- What a frame carrying `b` that starts in `s` leaves (R84, R85, R86). -/
structure FrameDone (s : State) (b : Byte) (t : State) : Prop where
  cfg : t.cfg = s.cfg
  clkDrv : t.clkDrv = false
  datDrv : t.datDrv = false
  datPrev : 0 < pulseLength s.cfg (s.draws + 30) → t.datPrev = !s.hostDatDrv (t.now - 1)
  ie : t.ie = true
  busy : t.busy = false
  hostTalking : t.hostTalking = s.hostTalking
  lastSent : t.lastSent = b
  shreg : t.shreg = b
  par : t.par = frameParity s.cfg.paritySeed b
  bitn : t.bitn = 8
  tries : t.tries = s.tries
  ok : t.ok = s.ok
  seq : t.seq = s.seq
  req : t.req = s.req
  result : t.result = s.result
  events : t.events = s.events
  refused : t.refused = s.refused
  now : t.now = pulseStart s.cfg s.draws s.now 11
  host : t.host = s.host
  consumer : t.consumer = s.consumer
  trace : t.trace = (frameRecord s.cfg s.draws s.now b).reverse ++ s.trace
  draws : t.draws = s.draws + 33

/-- The steps after a frame's last pulse (R84). -/
theorem frameDone_close {s y : State} {b : Byte} (h : SlotsDone s b 11 y)
    (hprev : 0 < pulseLength s.cfg (s.draws + 30) → y.datPrev = !s.hostDatDrv (y.now - 1))
    (hc : y.clkDrv = false) (hd : y.datDrv = false) (hp : y.par = frameParity s.cfg.paritySeed b) (hb : y.bitn = 8) :
    FrameDone s b (applyAll frameCloseActs y) := by
  rw [show applyAll frameCloseActs y = (y.writeIe true).writeBusy false from rfl]
  constructor
  case trace =>
    simp only [State.writeBusy_trace, State.writeIe_trace, State.writeIe_now, h.trace, h.now, frameRecord]
    simp [frameBits, dataBits]
  case datPrev => simpa using hprev
  case draws => simp [h.draws]
  case now => simp [h.now]
  all_goals simp [h.cfg, hd, hc, hp, hb, h.hostTalking, h.lastSent, h.shreg, h.tries, h.ok, h.seq, h.req, h.result,
    h.events, h.refused, h.host, h.consumer]

/-- The last two slots, parity and stop (R84). -/
theorem frameDone_tail {s w : State} {b : Byte} (h9 : SlotsDone s b 9 w) (hb : w.bitn = 8)
    (hp : w.par = frameParity s.cfg.paritySeed b) :
    FrameDone s b (applyAll frameCloseActs
      (applyAll pulseActs ((applyAll pulseActs (w.driveDat (!w.par))).driveDat (!true)))) := by
  have h10 := h9.slot (v := w.par) (by rw [hp]; exact (frameSlot_parity _ _).symm)
  have h11 := h10.slot (v := true) (frameSlot_stop _ _).symm
  refine frameDone_close h11 (fun hl => ?_) (by simp) (by simp) (by simp [hp]) (by simp [hb])
  rw [pulse_datPrev, State.elapse_datPrev, State.datPrevAt, if_neg (by simp [h9.cfg, h9.draws, Nat.add_assoc]; omega)]
  simp [State.datLineAt, State.hostDatDrv_congr (s := s) (t := (applyAll pulseActs (w.driveDat (!w.par))).driveDat false)
    (by simp [h9.host])]

theorem sendLoop_eq (s : State) :
    applyAll sendLoopActs s = applyAll (List.replicate 8 sendBitActs).flatten (s.writeBitn 0) := by
  simp only [sendLoopActs, dataBits, applyAll_cons, Act.apply]

/-- A whole frame (R84 to R86). -/
theorem frameDone (s : State) (src : ByteSrc) : FrameDone s (src.value s) (applyAll (frameActs src) s) := by
  have hpar : (applyAll (frameOpenActs src) s).par = s.cfg.paritySeed := by cases src <;> rfl
  have h1 := ((slotsDone_open s src).slot (v := false) (frameSlot_start _ _).symm).writeBitn 0
  obtain ⟨h9, hb, hp⟩ := sendLoop_rounds h1 rfl (by simp [hpar]) 8 (Nat.le_refl 8)
  rw [show frameActs src = frameOpenActs src ++ (setBitActs (.lit false) ++ (sendLoopActs ++ (setBitActs .parity ++
    (setBitActs (.lit true) ++ frameCloseActs)))) from rfl, applyAll_append, applyAll_append, applyAll_append,
    applyAll_append, applyAll_append, setBit_lit, setBit_lit, setBit_parity, sendLoop_eq]
  exact frameDone_tail h9 hb hp

/-! ### The data samples of a receive -/

theorem setBit_getLsbD (b : Byte) (i j : Nat) (v : Bool) (hi : i < 8) :
    (setBit b i v).getLsbD j = if j = i then v else b.getLsbD j := by
  unfold setBit
  by_cases hj : j < 8
  · by_cases he : j = i
    · subst he; cases v <;> simp [hj]
    · cases v <;> simp [hj, he]
  · have : j ≠ i := by omega
    cases v <;> simp [this, BitVec.getLsbD_of_ge _ _ (Nat.le_of_not_lt hj)]

end Sys2Proof.Machine
end

