-- ==== Sys2Proof/Laws/PerInstr.lean ====
section
/-! SUPPORT. The laws stated per instruction, one lemma per constructor of `Instr`. -/

namespace Sys2Proof.Laws.LegalRequest

/-- R59, R60: the instruction's request word is one the block does not refuse, and its two fields are `op` in bits `[11:8]`
and `arg` in bits `[7:0]`. -/
def Statement (i : Instr) : Prop :=
  i.request.wf = true ∧ requestFields (encode i) = i.request
    ∧ (encode i).toNat = i.request.op.toNat * 256 + i.request.arg.toNat

theorem pulse : Statement .pulse := by unfold Statement; decide

theorem setbit (b : Bool) : Statement (.setbit b) := by cases b <;> unfold Statement <;> decide

theorem readbit : Statement .readbit := by unfold Statement; decide

theorem readlines : Statement .readlines := by unfold Statement; decide

theorem reldat : Statement .reldat := by unfold Statement; decide

theorem send (b : Byte) : Statement (.send b) := by unfold Statement; revert b; decide +kernel

theorem recv : Statement .recv := by unfold Statement; decide

theorem setie (e : Bool) : Statement (.setie e) := by cases e <;> unfold Statement <;> decide

end Sys2Proof.Laws.LegalRequest
end

