-- ==== Sys2Proof/Laws/Receive.lean ====
section
/-! SUPPORT. What RECV does up to its verdict (R90, R93, R94). -/

namespace Sys2Proof.Machine

theorem recvByte_getLsbD (s : State) {i : Nat} (h : i < 8) :
    s.recvByte.getLsbD i = s.datLineAt (s.recvPulse (i + 1)) := by
  simp [State.recvByte, h]

/-- What a RECV that started in `s` has done after its first pulse and `n` samples with their pulses, but for the byte, the
parity and the count. -/
structure PulsesDone (s : State) (n : Nat) (u : State) : Prop where
  cfg : u.cfg = s.cfg
  clkDrv : u.clkDrv = false
  datDrv : u.datDrv = s.datDrv
  ie : u.ie = false
  busy : u.busy = true
  hostTalking : u.hostTalking = s.hostTalking
  lastSent : u.lastSent = s.lastSent
  tries : u.tries = s.tries
  seq : u.seq = s.seq
  req : u.req = s.req
  result : u.result = s.result
  events : u.events = s.events
  refused : u.refused = s.refused
  now : u.now = s.recvPulse (n + 1)
  host : u.host = s.host
  consumer : u.consumer = s.consumer
  draws : u.draws = s.draws + 3 * (n + 1)
  trace : u.trace = (([⟨s.now, .ie false⟩, ⟨s.now, .busy true⟩] : List Stamped) ++ pulseRecord s.cfg s.draws s.now
    ++ (List.range n).flatMap (fun i =>
        ⟨s.recvPulse (i + 1), .sampleDat (s.datLineAt (s.recvPulse (i + 1)))⟩
          :: pulseRecord s.cfg (s.draws + 3 * (i + 1)) (s.recvPulse (i + 1)))).reverse ++ s.trace

/-- At the next sample the data line has the level the bus host's drive and the untouched data drive give it. -/
theorem PulsesDone.datLine {s u : State} {n : Nat} (h : PulsesDone s n u) :
    u.datLine = s.datLineAt (s.recvPulse (n + 1)) := by
  rw [← h.now, ← State.datLineAt_now]; exact State.datLineAt_congr h.host h.datDrv _

/-- RECV's first pulse (R90). -/
theorem pulsesDone_open (s : State) :
    PulsesDone s 0 (applyAll pulseActs ((s.writeIe false).writeBusy true)) := by
  constructor
  case hostTalking => rw [pulse_hostTalking_masked rfl]; rfl
  all_goals simp [State.recvPulse, pulseStart]

/-- One more sample and its pulse, whatever the step writes into the datapath registers between them (R90). -/
theorem PulsesDone.sample {s u v : State} {n : Nat} (h : PulsesDone s n u)
    (hv : v = { u.sampleDat with shreg := v.shreg, par := v.par, ok := v.ok }) :
    PulsesDone s (n + 1) (applyAll pulseActs v) := by
  have hl := h.datLine
  generalize v.shreg = x, v.par = y, v.ok = z at hv
  subst hv
  have hm : ({ u.sampleDat with shreg := x, par := y, ok := z } : State).ie = false := by simp [h.ie]
  constructor
  case hostTalking => rw [pulse_hostTalking_masked hm]; simp [h.hostTalking]
  case now => simp [h.now, h.cfg, h.draws, State.recvPulse, pulseStart]
  case trace => simp [h.trace, h.cfg, h.draws, h.now, hl, List.range_succ]
  case draws => simp [h.draws]; omega
  all_goals simp [h.cfg, h.datDrv, h.ie, h.busy, h.lastSent, h.tries, h.seq, h.req, h.result, h.events, h.refused,
    h.host, h.consumer]

theorem PulsesDone.writeData {s u : State} {n : Nat} (h : PulsesDone s n u) (b : Byte) (p : Bool) (k : Nat) :
    PulsesDone s n { u with shreg := b, par := p, bitn := k } :=
  ⟨h.cfg, h.clkDrv, h.datDrv, h.ie, h.busy, h.hostTalking, h.lastSent, h.tries, h.seq, h.req, h.result, h.events,
    h.refused, h.now, h.host, h.consumer, h.draws, h.trace⟩

/-- RECV's loop: after `n` rounds the first `n` bits of the byte are in place and counted, and the parity has taken them in
(R90). -/
theorem recvLoop_rounds {s u : State} (h : PulsesDone s 0 u) (hb : u.bitn = 0) (hp : u.par = s.cfg.paritySeed)
    (hs : u.shreg = 0x00) (n : Nat) (hn : n ≤ 8) :
    PulsesDone s n (applyAll (List.replicate n recvBitActs).flatten u)
      ∧ (applyAll (List.replicate n recvBitActs).flatten u).bitn = n
      ∧ (applyAll (List.replicate n recvBitActs).flatten u).par = parityAfter s.cfg.paritySeed s.recvByte n
      ∧ ∀ j, (applyAll (List.replicate n recvBitActs).flatten u).shreg.getLsbD j =
          if j < n then s.recvByte.getLsbD j else false := by
  induction n with
  | zero => exact ⟨h, hb, hp, fun j => by simp [hs]⟩
  | succ n ih =>
    obtain ⟨hd, hbn, hpn, hsn⟩ := ih (by omega)
    rw [List.replicate_succ', List.flatten_append, applyAll_append]
    generalize applyAll (List.replicate n recvBitActs).flatten u = w at hd hbn hpn hsn ⊢
    have hbit : w.datLine = s.recvByte.getLsbD n := by rw [hd.datLine, recvByte_getLsbD s (by omega)]
    rw [show applyAll [recvBitActs].flatten w = (applyAll pulseActs (Act.sampleData.apply w)).writeBitn
      ((applyAll pulseActs (Act.sampleData.apply w)).bitn + 1) from rfl]
    have hd' := hd.sample (v := Act.sampleData.apply w) rfl
    refine ⟨hd'.writeData _ _ _, by simp [Act.apply, hbn], by simp [Act.apply, hpn, hbit, parityAfter], fun j => ?_⟩
    simp only [State.writeBitn_shreg, pulse_shreg, Act.apply, State.writePar_shreg, State.writeShreg_shreg]
    rw [setBit_getLsbD _ _ _ _ (by omega), hsn, hbn, hbit]
    by_cases hj : j = n
    · subst hj; simp
    · by_cases hlt : j < n
      · simp [hj, hlt, Nat.lt_succ_of_lt hlt]
      · simp [hj, hlt, show ¬ j < n + 1 by omega]

/-- What a RECV that started in `s` leaves when it comes to its verdict (R90, R93, R94). -/
structure RecvDone (s : State) (t : State) : Prop where
  cfg : t.cfg = s.cfg
  clkDrv : t.clkDrv = false
  datDrv : t.datDrv = false
  datPrev : 0 < pulseLength s.cfg (s.draws + 30) → t.datPrev = false
  ie : t.ie = true
  busy : t.busy = false
  hostTalking : t.hostTalking = s.hostTalking
  lastSent : t.lastSent = s.lastSent
  shreg : t.shreg = s.recvByte
  par : t.par = frameParity s.cfg.paritySeed s.recvByte
  bitn : t.bitn = 8
  tries : t.tries = s.tries
  ok : t.ok = (s.recvParityBit == frameParity s.cfg.paritySeed s.recvByte)
  seq : t.seq = s.seq
  req : t.req = s.req
  result : t.result = s.result
  events : t.events = s.events
  refused : t.refused = s.refused
  now : t.now = s.recvPulse 11
  host : t.host = s.host
  consumer : t.consumer = s.consumer
  trace : t.trace = (recvRecord s).reverse ++ s.trace
  draws : t.draws = s.draws + 33

/-- RECV's parity sample, stop slot, acknowledgement and release (R90). -/
theorem recvDone_tail {s w : State} (h : PulsesDone s 8 w) (hb : w.bitn = 8)
    (hp : w.par = frameParity s.cfg.paritySeed s.recvByte) (hs : w.shreg = s.recvByte) :
    RecvDone s (((((applyAll pulseActs ((applyAll pulseActs (Act.sampleParity.apply w)).driveDat true)).driveDat false).writeIe
      true).writeBusy false)) := by
  have h9 := h.sample (v := Act.sampleParity.apply w) rfl
  have hpr : (applyAll pulseActs (Act.sampleParity.apply w)).par = frameParity s.cfg.paritySeed s.recvByte := by
    simp [Act.apply, hp]
  have hbr : (applyAll pulseActs (Act.sampleParity.apply w)).bitn = 8 := by simp [Act.apply, hb]
  have hsr : (applyAll pulseActs (Act.sampleParity.apply w)).shreg = s.recvByte := by simp [Act.apply, hs]
  have hok : (applyAll pulseActs (Act.sampleParity.apply w)).ok =
      (s.recvParityBit == frameParity s.cfg.paritySeed s.recvByte) := by
    simp [Act.apply, hp, h.datLine, State.recvParityBit]
  generalize applyAll pulseActs (Act.sampleParity.apply w) = x at h9 hpr hbr hsr hok ⊢
  have hm : (x.driveDat true).ie = false := by simp [h9.ie]
  constructor
  case hostTalking => simp [pulse_hostTalking_masked hm, h9.hostTalking]
  case now => simp [h9.now, h9.cfg, h9.draws, State.recvPulse, pulseStart]
  case trace =>
    simp [h9.trace, h9.cfg, h9.draws, h9.now, recvRecord, setBitRecord, State.recvPulse, pulseStart]
  case draws => simp [h9.draws]
  case datPrev =>
    intro hl
    simp only [State.writeBusy_datPrev, State.writeIe_datPrev, State.driveDat_datPrev]
    rw [pulse_datPrev, State.elapse_datPrev, State.datPrevAt, if_neg (by simp [h9.cfg, h9.draws]; omega)]
    simp [State.datLineAt]
  all_goals simp [h9.cfg, h9.lastSent, h9.tries, h9.seq, h9.req, h9.result, h9.events, h9.refused, h9.host, h9.consumer,
    hpr, hbr, hsr, hok]

theorem recvLoop_eq (s : State) :
    applyAll recvLoopActs s = applyAll (List.replicate 8 recvBitActs).flatten (s.writeBitn 0) := by
  simp only [recvLoopActs, dataBits, applyAll_cons, Act.apply]

theorem recvActs_eq (s : State) : applyAll recvActs s =
    (((applyAll (setBitActs (.lit false)) (applyAll (.sampleParity :: pulseActs)
      (applyAll recvLoopActs (((applyAll pulseActs ((s.writeIe false).writeBusy true)).writeShreg 0x00).writePar
        (applyAll pulseActs ((s.writeIe false).writeBusy true)).cfg.paritySeed)))).driveDat false).writeIe true).writeBusy
        false := by
  rw [show recvActs = (.setIe false :: .setBusy true :: pulseActs) ++ ((.clearShreg :: .seedPar :: recvLoopActs) ++
    ((.sampleParity :: pulseActs) ++ (setBitActs (.lit false) ++ (.releaseDat :: frameCloseActs)))) from rfl,
    applyAll_append, applyAll_append, applyAll_append, applyAll_append]
  simp only [applyAll_cons, applyAll_nil, frameCloseActs, Act.apply, State.writeShreg_cfg]

/-- RECV up to its verdict. -/
theorem recvDone (s : State) : RecvDone s (applyAll recvActs s) := by
  have h1 := pulsesDone_open s
  rw [recvActs_eq]
  generalize applyAll pulseActs ((s.writeIe false).writeBusy true) = u at h1 ⊢
  obtain ⟨h8, hb, hp, hs⟩ := recvLoop_rounds (h1.writeData 0x00 u.cfg.paritySeed 0) rfl (by simp [h1.cfg]) rfl 8
    (Nat.le_refl 8)
  rw [recvLoop_eq, setBit_lit, applyAll_cons]
  refine recvDone_tail h8 hb hp ?_
  apply BitVec.eq_of_getLsbD_eq
  intro i hi
  have := hs i
  rwa [if_pos hi] at this

end Sys2Proof.Machine
end

