-- ==== Sys2Proof/Laws/Send.lean ====
section
/-! SUPPORT. How SEND's idle checks decide its end (R80 to R83), and the two ways SEND and RECV can end. -/

namespace Sys2Proof.Machine

/-- SEND after `n` failed idle checks and their waits (R81). -/
def State.failChecks (s : State) : Nat → State
  | 0 => s.writeTries 0
  | n + 1 => (((s.failChecks n).sampleClk.sampleDat).writeTries ((s.failChecks n).tries + 1)).wait s.cfg.tRetry

theorem failChecks_cfg (s : State) (n : Nat) : (s.failChecks n).cfg = s.cfg := by
  induction n with
  | zero => rfl
  | succ n ih => simp [State.failChecks, State.wait, ih]

theorem le_checkTime (c : Config) (d t n : Nat) : t ≤ checkTime c d t n := by
  induction n with
  | zero => exact Nat.le_refl _
  | succ n ih => exact Nat.le_trans ih (Nat.le_add_right _ _)

/-- Failed idle checks let their waits pass, count themselves, and record their samples. -/
theorem failChecks_eq (s : State) (n : Nat) : s.failChecks n =
    { s.elapse (checkTime s.cfg s.draws s.now n - s.now) with
      tries := n
      draws := s.draws + n
      trace := (checksRecord s n).reverse ++ s.trace } := by
  induction n with
  | zero => simp [State.failChecks, checkTime, checksRecord, State.writeTries]
  | succ n ih =>
    have hle := le_checkTime s.cfg s.draws s.now n
    have hnow : (s.failChecks n).now = checkTime s.cfg s.draws s.now n := by rw [ih]; simp; omega
    have hdr : (s.failChecks n).draws = s.draws + n := by rw [ih]
    have htr : (s.failChecks n).tries = n := by rw [ih]
    have hcl : (s.failChecks n).clkLine = s.clkLineAt (checkTime s.cfg s.draws s.now n) := by
      rw [← hnow, ← State.clkLineAt_now]; exact State.clkLineAt_congr (by rw [ih]; simp) (by rw [ih]; simp) _
    have hdl : (s.failChecks n).datLine = s.datLineAt (checkTime s.cfg s.draws s.now n) := by
      rw [← hnow, ← State.datLineAt_now]; exact State.datLineAt_congr (by rw [ih]; simp) (by rw [ih]; simp) _
    have hst : SameTime (s.elapse (checkTime s.cfg s.draws s.now n - s.now))
        (((s.failChecks n).sampleClk.sampleDat).writeTries ((s.failChecks n).tries + 1)) := by
      constructor <;> simp [ih]
    have hst' := hst.elapse (waitLength s.cfg (s.draws + n) s.cfg.tRetry)
    rw [← State.elapse_add, show checkTime s.cfg s.draws s.now n - s.now + waitLength s.cfg (s.draws + n) s.cfg.tRetry =
      checkTime s.cfg s.draws s.now (n + 1) - s.now by rw [checkTime]; omega] at hst'
    have hle' := le_checkTime s.cfg s.draws s.now (n + 1)
    simp only [State.failChecks, State.wait]
    simp only [State.writeTries_cfg, State.writeTries_draws, State.sampleDat_cfg, State.sampleDat_draws,
      State.sampleClk_cfg, State.sampleClk_draws, failChecks_cfg, hdr]
    apply State.ext
    case now => simp only [State.countDraw_now, hst'.now]
    case datPrev => simp only [State.countDraw_datPrev, hst'.datPrev]
    case hostTalking => simp only [State.countDraw_hostTalking, hst'.hostTalking]
    case trace =>
      have hl : ((s.failChecks n).sampleClk).datLine = (s.failChecks n).datLine := rfl
      simp [hl, hcl, hdl, hnow, checksRecord, List.range_succ, checkRecord]
      rw [ih]; simp [checksRecord, checkRecord]
    case tries => simp [htr]
    case draws => simp [hdr]; omega
    all_goals simp [ih]

theorem failChecks_busIdle (s : State) (n : Nat) :
    (s.failChecks n).busIdle = s.idleAt (checkTime s.cfg s.draws s.now n) := by
  have hle := le_checkTime s.cfg s.draws s.now n
  have hnow : (s.failChecks n).now = checkTime s.cfg s.draws s.now n := by rw [failChecks_eq]; simp; omega
  rw [← hnow, ← State.idleAt_now, State.idleAt, State.idleAt,
    State.clkLineAt_congr (s := s) (by rw [failChecks_eq]; simp) (by rw [failChecks_eq]; simp),
    State.datLineAt_congr (s := s) (by rw [failChecks_eq]; simp) (by rw [failChecks_eq]; simp)]

/-- From `j` failed checks on, with `n` left. -/
theorem sendFrom_failChecks_succ (b : ByteSrc) (s : State) (j n : Nat) :
    sendFrom b (n + 1) (s.failChecks j) =
      if s.idleAt (checkTime s.cfg s.draws s.now j) then
        (.sent, applyAll (frameActs b) ((s.failChecks j).sampleClk.sampleDat.writeTries ((s.failChecks j).tries + 1)))
      else sendFrom b n (s.failChecks (j + 1)) := by
  rw [← failChecks_busIdle, sendFrom, State.failChecks, failChecks_cfg]

/-- A SEND whose idle checks all fail (R82, R83). -/
theorem sendFrom_dropped {b : ByteSrc} {s : State} (n j : Nat)
    (h : ∀ k, j ≤ k → k < j + n → s.idleAt (checkTime s.cfg s.draws s.now k) = false) :
    sendFrom b n (s.failChecks j) = (.dropped, s.failChecks (j + n)) := by
  induction n generalizing j with
  | zero => rfl
  | succ n ih =>
    rw [sendFrom_failChecks_succ, if_neg (by simp [h j (Nat.le_refl j) (by omega)]),
      ih (j + 1) (fun k h1 h2 => h k (by omega) (by omega))]
    rw [Nat.add_right_comm, Nat.add_assoc]

/-- A SEND whose first successful idle check is the `m`-th from `j` failed ones on (R80, R81). -/
theorem sendFrom_sent {b : ByteSrc} {s : State} (m n j : Nat) (hm : m < n)
    (hf : ∀ k, j ≤ k → k < j + m → s.idleAt (checkTime s.cfg s.draws s.now k) = false)
    (hi : s.idleAt (checkTime s.cfg s.draws s.now (j + m)) = true) :
    sendFrom b n (s.failChecks j) = (.sent, applyAll (frameActs b)
      ((s.failChecks (j + m)).sampleClk.sampleDat.writeTries ((s.failChecks (j + m)).tries + 1))) := by
  induction m generalizing j n with
  | zero =>
    obtain ⟨n, rfl⟩ : ∃ n', n = n' + 1 := ⟨n - 1, by omega⟩
    rw [Nat.add_zero] at hi
    simp only [Nat.add_zero]
    rw [sendFrom_failChecks_succ, if_pos hi]
  | succ m ih =>
    obtain ⟨n, rfl⟩ : ∃ n', n = n' + 1 := ⟨n - 1, by omega⟩
    rw [sendFrom_failChecks_succ, if_neg (by simp [hf j (Nat.le_refl j) (by omega)]),
      ih n (j + 1) (by omega) (fun k h1 h2 => hf k (by omega) (by omega)) (by rwa [Nat.add_right_comm, Nat.add_assoc])]
    rw [Nat.add_right_comm, Nat.add_assoc]

/-- The state in which SEND's frame starts, after `j` failed checks and one that succeeds (R84). -/
def State.frameStart (s : State) (j : Nat) : State :=
  (s.failChecks j).sampleClk.sampleDat.writeTries (j + 1)

/-- SEND, never finding the bus idle (R82, R83). -/
theorem request_send_dropped {s : State} (h : s.seq = .idle) (hN : 0 < s.cfg.nAttempts) (b : Byte)
    (hf : ∀ k < s.cfg.nAttempts, s.idleAt (checkTime s.cfg s.draws s.now k) = false) :
    s.request (.send b) = .next ((s.failChecks s.cfg.nAttempts).finish (some (.send .dropped))) := by
  rw [request_send h hN, show s.writeTries 0 = s.failChecks 0 from rfl,
    sendFrom_dropped s.cfg.nAttempts 0 (fun k _ hk => hf k (by omega)), Nat.zero_add]
  rfl

/-- SEND whose check `j` is the first that finds the bus idle (R84). -/
theorem request_send_sent {s : State} (h : s.seq = .idle) (b : Byte) {j : Nat} (hj : j < s.cfg.nAttempts)
    (hf : ∀ k < j, s.idleAt (checkTime s.cfg s.draws s.now k) = false)
    (hi : s.idleAt (checkTime s.cfg s.draws s.now j) = true) :
    s.request (.send b) = .next ((applyAll (frameActs (.lit b)) (s.frameStart j)).finish (some (.send .sent))) := by
  have ht : (s.failChecks j).tries = j := by rw [failChecks_eq]
  rw [request_send h (by omega), show s.writeTries 0 = s.failChecks 0 from rfl,
    sendFrom_sent (b := .lit b) j s.cfg.nAttempts 0 hj (fun k _ hk => hf k (by omega)) (by rwa [Nat.zero_add]),
    Nat.zero_add, ht]
  rfl

/-- Some idle check succeeds, and one is the first; or all fail. -/
theorem firstCheck (s : State) :
    (∀ k < s.cfg.nAttempts, s.idleAt (checkTime s.cfg s.draws s.now k) = false) ∨
      ∃ j < s.cfg.nAttempts, (∀ k < j, s.idleAt (checkTime s.cfg s.draws s.now k) = false) ∧
        s.idleAt (checkTime s.cfg s.draws s.now j) = true := by
  by_cases h : ∀ k < s.cfg.nAttempts, s.idleAt (checkTime s.cfg s.draws s.now k) = false
  · exact .inl h
  · right
    have hex : ∃ j, j < s.cfg.nAttempts ∧ s.idleAt (checkTime s.cfg s.draws s.now j) = true := by
      by_contra hc
      exact h (fun k hk => by
        by_contra hk'
        exact hc ⟨k, hk, by simpa using hk'⟩)
    classical
    refine ⟨Nat.find hex, (Nat.find_spec hex).1, fun k hk => ?_, (Nat.find_spec hex).2⟩
    have := Nat.find_min hex hk
    by_contra hk'
    exact this ⟨Nat.lt_trans hk (Nat.find_spec hex).1, by simpa using hk'⟩

/-- A frame of `RESEND_REQ` is the frame of that byte. -/
theorem frame_resend {b : Byte} {x : State} (h : x.cfg.resendReq = b) :
    applyAll (frameActs (.lit b)) x = applyAll (frameActs .resend) x := by
  have hsplit : ∀ src, frameActs src = frameOpenActs src ++ (setBitActs (.lit false) ++ (sendLoopActs ++
    (setBitActs .parity ++ (setBitActs (.lit true) ++ frameCloseActs)))) := fun _ => rfl
  rw [hsplit (.lit b), hsplit .resend, applyAll_append (frameOpenActs (.lit b)), applyAll_append (frameOpenActs .resend)]
  congr 1
  simp [frameOpenActs, applyAll_cons, Act.apply, ByteSrc.value, h]

/-- SEND(RESEND_REQ) is the SEND of that byte (R92). -/
theorem sendFrom_resend {b : Byte} (n : Nat) {x : State} (h : x.cfg.resendReq = b) :
    sendFrom (.lit b) n x = sendFrom .resend n x := by
  induction n generalizing x with
  | zero => rfl
  | succ n ih => simp only [sendFrom]; rw [ih (by simpa [State.wait] using h), frame_resend (by simpa using h)]

/-- RECV on a parity failure: the SEND of `RESEND_REQ` from the state RECV has reached decides its end (R92). -/
theorem request_recv_bad {s : State} (h : s.seq = .idle) (hN : 0 < s.cfg.nAttempts)
    (hok : (applyAll recvActs s).ok = false) {v : State} {st : SendStatus}
    (hv : (applyAll recvActs s).request (.send s.cfg.resendReq) = .next v) (hst : v.result = some (.send st)) :
    s.request .recv = .next (v.finish (some (.rxParityError st))) := by
  have hu := recvDone s
  rw [request_recv h hN, if_neg (by simp [hok])]
  generalize applyAll recvActs s = u at hok hv hu ⊢
  have hidle : u.seq = .idle := by rw [hu.seq, h]
  rw [request_send hidle (by rw [hu.cfg]; exact hN)] at hv
  rw [sendFrom_resend _ (by simp [hu.cfg]), hu.cfg] at hv
  generalize sendFrom .resend s.cfg.nAttempts (u.writeTries 0) = r at hv ⊢
  simp only [State.finishSend, Host.Outcome.next.injEq] at hv
  subst hv
  simp only [State.finish_result, Option.some.injEq, Result.send.injEq] at hst
  subst hst
  rfl

/-- SEND whose check `j` is the first that finds the bus idle leaves what a frame that starts then leaves (R84). -/
theorem send_sent_spec {s : State} (h : s.seq = .idle) (b : Byte) {j : Nat} (hj : j < s.cfg.nAttempts)
    (hf : ∀ k < j, s.idleAt (checkTime s.cfg s.draws s.now k) = false)
    (hi : s.idleAt (checkTime s.cfg s.draws s.now j) = true) :
    ∃ x, FrameDone (s.frameStart j) b x ∧ s.request (.send b) = .next (x.finish (some (.send .sent))) :=
  ⟨_, frameDone (s.frameStart j) (.lit b), request_send_sent h b hj hf hi⟩

/-- RECV comes to its verdict in a state `u`: there it delivers the byte, or ends as the SEND of `RESEND_REQ` from `u` ends
(R91, R92). -/
theorem recv_spec {s : State} (h : s.seq = .idle) (hN : 0 < s.cfg.nAttempts) :
    ∃ u, RecvDone s u
      ∧ (u.ok = true → s.request .recv = .next ((u.emit u.shreg).finish (some (.rxOk u.shreg))))
      ∧ (u.ok = false → ∀ v st, u.request (.send s.cfg.resendReq) = .next v → v.result = some (.send st) →
          s.request .recv = .next (v.finish (some (.rxParityError st)))) := by
  refine ⟨_, recvDone s, fun hok => ?_, fun hok v st hv hst => request_recv_bad h hN hok hv hst⟩
  rw [request_recv h hN, if_pos hok]

end Sys2Proof.Machine
end

