-- ==== Sys2Proof/Laws/Step.lean ====
section
/-! SUPPORT. What a step can do, said once: a relation that every microstep, every consumer action and the bookkeeping of a
request respects holds between the state before and the state after of every step. -/

namespace Sys2Proof.Machine

/-- Every instruction's meaning is its request (R27, R28). -/
theorem exec_eq_request (i : Instr) (s : State) : exec i s = s.request i := by cases i <;> rfl

/-- Every instruction's meaning goes on to a next state (R101). -/
theorem exec_total (i : Instr) (s : State) : ∃ t, exec i s = .next t := by
  rw [exec_eq_request, State.request]; cases s.seq <;> exact ⟨_, rfl⟩

/-- What an instruction's meaning can do: run from its first step, or be refused while another operation runs. -/
theorem exec_cases {i : Instr} {s t : State} (h : exec i s = .next t) :
    (s.seq = .idle ∧ t = (s.goto i 0).runSteps (Config.stepBound s.cfg))
      ∨ ((∃ op k, s.seq = .run op k) ∧ t = s.refuse (encode i)) := by
  rw [exec_eq_request, State.request] at h
  cases hq : s.seq with
  | idle => exact .inl ⟨rfl, by simpa [hq] using h.symm⟩
  | run op k => exact .inr ⟨⟨op, k, rfl⟩, by simpa [hq] using h.symm⟩

/-- What a step can do: refuse a word, serve one that decodes, make the running operation's next step, or let the consumer
act. -/
theorem step_cases {s t : State} (h : step s = .next t) :
    (∃ w, s.req = some w ∧ t = s.takeRequest.refuse w)
      ∨ (∃ w i, s.req = some w ∧ decode w = .instr i ∧ exec i s.takeRequest = .next t)
      ∨ (s.req = none ∧ (∃ op k, s.seq = .run op k) ∧ t = s.seqStep)
      ∨ (s.req = none ∧ s.seq = .idle ∧ t = s.consumerStep) := by
  unfold step serveRequest at h
  cases hq : s.req with
  | some w =>
    simp only [hq] at h
    cases hd : decode w with
    | instr i => simp only [hd] at h; exact .inr (.inl ⟨w, i, rfl, hd, h⟩)
    | reservedOp _ => simp only [hd, Host.Outcome.next.injEq] at h; exact .inl ⟨w, rfl, h.symm⟩
    | strayArg _ _ => simp only [hd, Host.Outcome.next.injEq] at h; exact .inl ⟨w, rfl, h.symm⟩
  | none =>
    simp only [hq] at h
    cases hs : s.seq with
    | run op k =>
      simp only [hs, Host.Outcome.next.injEq] at h
      exact .inr (.inr (.inl ⟨rfl, ⟨op, k, rfl⟩, h.symm⟩))
    | idle =>
      simp only [hs, Host.Outcome.next.injEq] at h
      exact .inr (.inr (.inr ⟨rfl, rfl, h.symm⟩))

/-- What a microstep can do. -/
theorem seqStep_cases (s : State) :
    (s.seq = .idle ∧ s.seqStep = s)
      ∨ (∃ op k, s.seq = .run op k ∧ (code op)[k]? = none ∧ s.seqStep = { s with seq := .idle })
      ∨ ∃ op k m, s.seq = .run op k ∧ (code op)[k]? = some m ∧ s.seqStep = m.perform op k s := by
  unfold State.seqStep
  cases hq : s.seq with
  | idle => exact .inl ⟨rfl, rfl⟩
  | run op k =>
    cases hc : (code op)[k]? with
    | none => exact .inr (.inl ⟨op, k, rfl, hc, by simp only [hc]⟩)
    | some m => exact .inr (.inr ⟨op, k, m, rfl, hc, by simp only [hc]⟩)

/-- A property that no microstep breaks holds after any number of them. -/
theorem runSteps_induct {P : State → Prop} (hs : ∀ s, P s → P s.seqStep) (n : Nat) {s : State} (h : P s) :
    P (s.runSteps n) := by
  induction n generalizing s with
  | zero => exact h
  | succ n ih =>
    unfold State.runSteps
    cases s.seq with
    | idle => exact h
    | run _ _ => exact ih (hs s h)

/-- A property that no microstep and no consumer action breaks, and that the bookkeeping of a request leaves alone, holds
after every step. -/
theorem step_induct {P : State → Prop} (hs : ∀ s, P s → P s.seqStep)
    (hg : ∀ s (i : Instr), s.seq = .idle → P s → P (s.goto i 0)) (href : ∀ s w, P s → P (s.refuse w))
    (htk : ∀ s, P s → P s.takeRequest)
    (hc : ∀ s, s.req = none → s.seq = .idle → P s → P s.consumerStep)
    {s t : State} (h : P s) (ht : step s = .next t) : P t := by
  rcases step_cases ht with ⟨w, _, rfl⟩ | ⟨w, i, _, _, he⟩ | ⟨_, _, rfl⟩ | ⟨hr, hq, rfl⟩
  · exact href _ _ (htk s h)
  · rcases exec_cases he with ⟨hi, rfl⟩ | ⟨_, rfl⟩
    · exact runSteps_induct hs _ (hg _ i hi (htk s h))
    · exact href _ _ (htk s h)
  · exact hs s h
  · exact hc s hr hq h

/-- What a straight-line step leaves alone: parameters, inputs, port, refusals, events and position stay, time and the
record only grow, and the flag is never cleared. -/
structure ActFrame (s t : State) : Prop where
  cfg : t.cfg = s.cfg
  host : t.host = s.host
  consumer : t.consumer = s.consumer
  req : t.req = s.req
  refused : t.refused = s.refused
  events : t.events = s.events
  result : t.result = s.result
  seq : t.seq = s.seq
  now : s.now ≤ t.now
  trace : ∃ new, t.trace = new ++ s.trace ∧ ∀ e ∈ new, e.time = s.now
  hostTalking : s.hostTalking = true → t.hostTalking = true

theorem Act.frame (a : Act) (s : State) : ActFrame s (a.apply s) := by
  cases a <;> constructor <;> simp +contextual [Act.apply, State.wait, State.elapse_hostTalking]
  all_goals exact ⟨[_], rfl, by simp⟩

/-- What every microstep leaves alone: the parameters, the inputs, the port and the refusals stay, time, the record and the
events only grow, and the flag is never cleared. -/
structure MicroFrame (s t : State) : Prop where
  cfg : t.cfg = s.cfg
  host : t.host = s.host
  consumer : t.consumer = s.consumer
  req : t.req = s.req
  refused : t.refused = s.refused
  now : s.now ≤ t.now
  trace : ∃ new, t.trace = new ++ s.trace
  events : ∃ new, t.events = new ++ s.events
  hostTalking : s.hostTalking = true → t.hostTalking = true

theorem MicroFrame.refl (s : State) : MicroFrame s s :=
  ⟨rfl, rfl, rfl, rfl, rfl, Nat.le_refl _, ⟨[], rfl⟩, ⟨[], rfl⟩, id⟩

theorem MicroFrame.trans {a b c : State} (h : MicroFrame a b) (g : MicroFrame b c) : MicroFrame a c := by
  obtain ⟨x, hx⟩ := h.trace
  obtain ⟨y, hy⟩ := g.trace
  obtain ⟨v, hv⟩ := h.events
  obtain ⟨w, hw⟩ := g.events
  exact ⟨g.cfg.trans h.cfg, g.host.trans h.host, g.consumer.trans h.consumer, g.req.trans h.req,
    g.refused.trans h.refused, Nat.le_trans h.now g.now, ⟨y ++ x, by rw [hy, hx, List.append_assoc]⟩,
    ⟨w ++ v, by rw [hw, hv, List.append_assoc]⟩, fun hf => g.hostTalking (h.hostTalking hf)⟩

theorem State.finishSend_frame (op : Instr) (st : SendStatus) (s : State) : MicroFrame s (s.finishSend op st) := by
  cases op <;> exact ⟨rfl, rfl, rfl, rfl, rfl, Nat.le_refl _, ⟨[], rfl⟩, ⟨[], rfl⟩, id⟩

theorem MicroOp.perform_frame (m : MicroOp) (op : Instr) (k : Nat) (s : State) : MicroFrame s (m.perform op k s) := by
  cases m with
  | act a =>
    have h := a.frame s
    obtain ⟨x, hx, _⟩ := h.trace
    exact ⟨h.cfg, h.host, h.consumer, h.req, h.refused, h.now, ⟨x, hx⟩, ⟨[], h.events⟩, h.hostTalking⟩
  | idleCheck => exact ⟨rfl, rfl, rfl, rfl, rfl, Nat.le_refl _, ⟨[_, _], rfl⟩, ⟨[], rfl⟩, id⟩
  | retryTest =>
    show MicroFrame s (if _ then _ else _)
    split
    · exact State.finishSend_frame ..
    · exact ⟨rfl, rfl, rfl, rfl, rfl, Nat.le_refl _, ⟨[], rfl⟩, ⟨[], rfl⟩, id⟩
  | sent => exact State.finishSend_frame ..
  | verdict =>
    show MicroFrame s (if _ then _ else _)
    split
    · exact ⟨rfl, rfl, rfl, rfl, rfl, Nat.le_refl _, ⟨[], rfl⟩, ⟨[_], rfl⟩, id⟩
    · exact ⟨rfl, rfl, rfl, rfl, rfl, Nat.le_refl _, ⟨[], rfl⟩, ⟨[], rfl⟩, id⟩
  | readBit => exact ⟨rfl, rfl, rfl, rfl, rfl, Nat.le_refl _, ⟨[_], rfl⟩, ⟨[], rfl⟩, id⟩
  | readLines => exact ⟨rfl, rfl, rfl, rfl, rfl, Nat.le_refl _, ⟨[_, _], rfl⟩, ⟨[], rfl⟩, id⟩
  | done => exact ⟨rfl, rfl, rfl, rfl, rfl, Nat.le_refl _, ⟨[], rfl⟩, ⟨[], rfl⟩, id⟩

theorem State.seqStep_frame (s : State) : MicroFrame s s.seqStep := by
  rcases seqStep_cases s with ⟨_, h⟩ | ⟨op, k, _, _, h⟩ | ⟨op, k, m, _, _, h⟩ <;> rw [h]
  · exact ⟨rfl, rfl, rfl, rfl, rfl, Nat.le_refl _, ⟨[], rfl⟩, ⟨[], rfl⟩, id⟩
  · exact ⟨rfl, rfl, rfl, rfl, rfl, Nat.le_refl _, ⟨[], rfl⟩, ⟨[], rfl⟩, id⟩
  · exact m.perform_frame op k s

theorem State.runSteps_frame (n : Nat) (s : State) : MicroFrame s (s.runSteps n) :=
  runSteps_induct (P := MicroFrame s) (fun t h => h.trans t.seqStep_frame) n (.refl s)

/-- What every instruction leaves alone, and that only an accepted one leaves the refusals alone. -/
theorem exec_frame {i : Instr} {s t : State} (h : exec i s = .next t) :
    MicroFrame { s with refused := t.refused } t ∧ (s.seq = .idle → t.refused = s.refused) := by
  rcases exec_cases h with ⟨hs, rfl⟩ | ⟨⟨op, k, hs⟩, rfl⟩
  · have := (s.goto i 0).runSteps_frame (Config.stepBound s.cfg)
    exact ⟨⟨this.cfg, this.host, this.consumer, this.req, rfl, this.now, this.trace, this.events, this.hostTalking⟩,
      fun _ => this.refused⟩
  · exact ⟨.refl _, fun h' => by rw [hs] at h'; cases h'⟩

end Sys2Proof.Machine
end

