-- ==== Sys2Proof/Tests/Slice0.lean ====
section
/-! SUPPORT. The model's own tests, with their expected values from the spec's vectors (95_test_vectors.md) and rules, and for
every obligation that has hypotheses a concrete state and operands that meet them all (the theorems named witness_). -/

namespace Sys2Proof.Tests

open Sys2Proof Sys2Proof.Machine

/-! ### Small states -/

/-- The reset state with a plain byte for `last_sent`, so that the kernel can evaluate all of it. -/
def start : State := { State.reset with lastSent := 0x00 }

/-- `start` with the bus host's drives. -/
def on (h : List HostDrive) : State := { start with host := h }

/-- The bus host pulls the clock low on `[a, b)`. -/
def clkLow (a b : Nat) : List HostDrive := [⟨a, true, false⟩, ⟨b, false, false⟩]

/-- The bus host pulls the data line low on `[a, b)`. -/
def datLow (a b : Nat) : List HostDrive := [⟨a, false, true⟩, ⟨b, false, false⟩]

/-- `start` with pulses of 8 µs, retries of 10 µs and 3 idle checks. -/
def brisk : State :=
  { start with cfg := { Config.default with tSettle1 := 2, tHold := 4, tSettle2 := 2, tRetry := 10, nAttempts := 3 } }

/-- The bus host's drives for a frame to the device, as section 5 of 95_test_vectors.md places its slots: the start bit from
the beginning, slot `n` at `80 (n - 1) + 40`. -/
def hostFrame (slots : List Bool) : List HostDrive :=
  slots.zipIdx.map (fun v => ⟨if v.2 = 0 then 0 else 80 * (v.2 - 1) + 40, false, !v.1⟩)

/-- The state an instruction leaves. -/
def after (i : Instr) (s : State) : State :=
  match exec i s with
  | .next t => t
  | .fault _ => s
  | .refused _ => s

/-- The state a step leaves. -/
def stepped (s : State) : State :=
  match step s with
  | .next t => t
  | .fault _ => s
  | .refused _ => s

/-! ### Encodings: the words of R59, bit by bit -/

theorem test_decode_pulse : decode 0b000000000000#12 = .instr .pulse := by decide
theorem test_decode_setbit : decode 0b000100000000#12 = .instr (.setbit false)
    ∧ decode 0b000100000001#12 = .instr (.setbit true) := by
  decide
theorem test_decode_readbit : decode 0b001000000000#12 = .instr .readbit := by decide
theorem test_decode_readlines : decode 0b001100000000#12 = .instr .readlines := by decide
theorem test_decode_reldat : decode 0b010000000000#12 = .instr .reldat := by decide
theorem test_decode_send : decode 0b010100011100#12 = .instr (.send 0x1C#8)
    ∧ decode 0x5FA#12 = .instr (.send 0xFA#8) := by decide
theorem test_decode_recv : decode 0b011000000000#12 = .instr .recv := by decide
theorem test_decode_setie : decode 0b011100000000#12 = .instr (.setie false)
    ∧ decode 0b011100000001#12 = .instr (.setie true) := by decide

/-- V33's refused words. -/
theorem test_decode_refuses : decode 0x001#12 = .strayArg 0x0#4 0x01#8 ∧ decode 0x102#12 = .strayArg 0x1#4 0x02#8
    ∧ decode 0x2FF#12 = .strayArg 0x2#4 0xFF#8 ∧ decode 0x380#12 = .strayArg 0x3#4 0x80#8
    ∧ decode 0x401#12 = .strayArg 0x4#4 0x01#8 ∧ decode 0x601#12 = .strayArg 0x6#4 0x01#8
    ∧ decode 0x702#12 = .strayArg 0x7#4 0x02#8 ∧ decode 0x800#12 = .reservedOp 0x8#4
    ∧ decode 0xFFF#12 = .reservedOp 0xF#4 := by decide

/-- R62's examples. -/
theorem test_asm : (Instr.send 0xFA#8).asm = "SEND 0xFA" ∧ encode (.send 0xFA#8) = 0x5FA#12
    ∧ (Instr.setbit true).asm = "SETBIT 1" ∧ encode (.setbit true) = 0x101#12 ∧ encode .recv = 0x600#12
    ∧ encode (.setie true) = 0x701#12 := by decide +kernel

/-- The numbering of opcode_table.json: a word of 12 bits, and nothing above them. -/
theorem test_decodeTableWord : decodeTableWord 12 0x600 = some .recv ∧ decodeTableWord 12 0x602 = none
    ∧ decodeTableWord 16 0x1600 = none := by decide

/-! ### WellFormed: each check refuses an ill-formed term -/

theorem test_wf_request : Request.wf ⟨0x1#4, 0x01#8⟩ = true ∧ Request.wf ⟨0x5#4, 0xFF#8⟩ = true := by decide
theorem test_wf_refuses_reserved_op : Request.opDefined ⟨0x8#4, 0x00#8⟩ = false ∧ Request.wf ⟨0xF#4, 0x00#8⟩ = false := by decide
theorem test_wf_refuses_stray_arg : Request.argClean ⟨0x0#4, 0x80#8⟩ = false ∧ Request.wf ⟨0x7#4, 0x02#8⟩ = false := by decide
theorem test_wf_refuses_config : Config.default.wf = true ∧ Config.wf { Config.default with nAttempts := 0 } = false
    ∧ Config.wf { Config.default with nAttempts := 128 } = false := by decide
theorem test_wf_refuses_schedule : hostScheduleWf (datLow 10 15) = true ∧ hostScheduleWf (datLow 15 10) = false
    ∧ hostScheduleWf (datLow 10 10) = false ∧ hostScheduleWf [⟨0, false, false⟩] = false
    ∧ hostScheduleWf [⟨0, true, false⟩, ⟨5, true, false⟩] = false := by decide

/-! ### Reset, and a program's first instruction -/

/-- R32. -/
theorem test_reset : State.reset.ie = true ∧ State.reset.datPrev = true ∧ State.reset.busIdle = true ∧ State.reset.seq = .idle := by
  decide

theorem test_withFetchWord : (stepped (State.reset.withFetchWord 12 0x700)).ie = false
    ∧ (stepped (State.reset.withFetchWord 12 0x800)).refused = [0x800#12] := by decide

/-! ### The line transport -/

/-- V1. -/
theorem test_pulse : (after .pulse start).now = 80 ∧ (after .pulse start).clkDrv = false
    ∧ (after .pulse start).trace = [⟨60, .clkDrv false⟩, ⟨20, .clkDrv true⟩] := by decide +kernel

/-- V2: with the bus host holding the clock low, the same. -/
theorem test_pulse_held : (after .pulse (on (clkLow 0 100))).now = 80
    ∧ (after .pulse (on (clkLow 0 100))).trace = [⟨60, .clkDrv false⟩, ⟨20, .clkDrv true⟩] := by decide +kernel

/-- V5: the self-trigger of R126; V3: none with `ie` = 0. -/
theorem test_setbit_zero : (after (.setbit false) start).hostTalking = true
    ∧ (after (.setbit false) { start with ie := false }).hostTalking = false
    ∧ (after (.setbit false) start).datDrv = true ∧ (after (.setbit false) start).now = 80 := by decide +kernel

/-- V4. -/
theorem test_setbit_one : (after (.setbit true) (on (datLow 0 80))).datDrv = false
    ∧ (after (.setbit true) (on (datLow 0 80))).now = 80 := by decide +kernel

/-- V6. -/
theorem test_readbit : (after .readbit start).result = some (.bit true)
    ∧ (after .readbit (on (datLow 0 9))).result = some (.bit false)
    ∧ (after .readbit { start with datDrv := true }).result = some (.bit false)
    ∧ (after .readbit { on (datLow 0 9) with datDrv := true }).result = some (.bit false) := by decide

/-- V7. -/
theorem test_readlines : (after .readlines start).result = some (.lines 0b11#2)
    ∧ (after .readlines (on (datLow 0 9))).result = some (.lines 0b10#2)
    ∧ (after .readlines { start with datDrv := true }).result = some (.lines 0b10#2)
    ∧ (after .readlines (on (clkLow 0 9))).result = some (.lines 0b01#2)
    ∧ (after .readlines { on [⟨0, true, true⟩] with datDrv := true }).result = some (.lines 0b00#2) := by decide

/-- V8. -/
theorem test_reldat : (after .reldat { start with datDrv := true, now := 80 }).datLine = true
    ∧ (after .reldat { on (datLow 0 99) with datDrv := true, now := 80 }).datLine = false
    ∧ (after .reldat { start with datDrv := true, now := 80 }).now = 80 := by decide

/-! ### SEND -/

/-- V0: frame words. -/
theorem test_frameWord : frameWord true 0x00#8 = 0x600#11 ∧ frameWord true 0xFF#8 = 0x7FE#11 ∧ frameWord true 0x01#8 = 0x402#11
    ∧ frameWord true 0x80#8 = 0x500#11 ∧ frameWord true 0xAA#8 = 0x754#11 ∧ frameWord true 0x55#8 = 0x6AA#11
    ∧ frameWord true 0xFE#8 = 0x5FC#11 ∧ frameWord true 0xFA#8 = 0x7F4#11 := by decide

/-- V10: the wire string 00101111111, and the end at 880; V18: `ie` is 1 afterwards whatever it was. -/
theorem test_send : dataDriven (after (.send 0xFA#8) { start with ie := false }).trace.reverse
      = [false, false, true, false, true, true, true, true, true, true, true]
    ∧ (after (.send 0xFA#8) { start with ie := false }).now = 880
    ∧ (after (.send 0xFA#8) { start with ie := false }).ie = true
    ∧ (after (.send 0xFA#8) { start with ie := false }).lastSent = 0xFA#8
    ∧ (after (.send 0xFA#8) { start with ie := false }).result = some (.send .sent) := by decide +kernel

/-- V16: the data line held low until the check at 3000; the falling edge at 0 sets the flag. -/
theorem test_send_retry : (after (.send 0xFA#8) (on (datLow 0 2500))).now = 3880
    ∧ (after (.send 0xFA#8) (on (datLow 0 2500))).tries = 4
    ∧ (after (.send 0xFA#8) (on (datLow 0 2500))).hostTalking = true := by decide +kernel

/-- V15 and V17, in small: released after the last check, the byte is dropped when the last wait is over. -/
theorem test_send_dropped : (after (.send 0x1C#8) { brisk with host := clkLow 0 25 }).now = 30
    ∧ (after (.send 0x1C#8) { brisk with host := clkLow 0 25 }).result = some (.send .dropped)
    ∧ (after (.send 0x1C#8) { brisk with host := clkLow 0 25 }).lastSent = 0x00#8 := by decide +kernel

/-! ### RECV -/

/-- V20: the good frame 0xED. -/
theorem test_recv : (after .recv (on (hostFrame [false, true, false, true, true, false, true, true, true, true, true]))).result
      = some (.rxOk 0xED#8)
    ∧ (after .recv (on (hostFrame [false, true, false, true, true, false, true, true, true, true, true]))).events
      = [⟨880, 0xED#8⟩] := by decide +kernel

/-- V22: 0xF4 with a wrong parity bit: the resend request goes out from 880 to 1760. -/
theorem test_recv_parity_error :
    (after .recv (on (hostFrame [false, false, false, true, false, true, true, true, true, true, true]))).result
      = some (.rxParityError .sent)
    ∧ (after .recv (on (hostFrame [false, false, false, true, false, true, true, true, true, true, true]))).now = 1760
    ∧ (after .recv (on (hostFrame [false, false, false, true, false, true, true, true, true, true, true]))).lastSent = 0xFE#8
    ∧ (after .recv (on (hostFrame [false, false, false, true, false, true, true, true, true, true, true]))).events = [] := by
  decide +kernel

/-! ### SETIE and the receive interrupt -/

/-- R98. -/
theorem test_setie : (after (.setie false) start).ie = false ∧ (after (.setie false) start).now = 0 := by decide

/-- V30: SETIE 1 while the data line is already low, under both triggers. -/
theorem test_setie_low_line :
    (stepped (after (.setie true) { on (datLow 10 99) with ie := false, datPrev := false, now := 20 })).hostTalking = false
    ∧ (stepped (after (.setie true)
        { on (datLow 10 99) with ie := false, datPrev := false, now := 20, cfg := { start.cfg with irqTrigger := .levelLow } })).hostTalking
      = true := by decide

/-- V31: two edges leave one flag; taken at 20, the edge at 30 sets it again. -/
theorem test_flag : (stepped { on (datLow 10 15) with consumer := [.delay 20] }).hostTalking = true
    ∧ (stepped { on (datLow 10 15) with hostTalking := true, now := 20, consumer := [.takeFlag] }).hostTalking = false
    ∧ (stepped { on (datLow 30 35) with now := 20, consumer := [.delay 20] }).hostTalking = true := by decide +kernel

/-- D10: the flag is not set by an edge while `ie` is 0. -/
theorem test_flag_masked : (stepped { on (datLow 10 15) with ie := false, consumer := [.delay 20] }).hostTalking = false := by
  decide +kernel

/-! ### Witnesses: concrete states and operands that meet an obligation's hypotheses, all of them together -/

theorem witness_StepRunsDecodedInstruction :
    (({ start with req := some 0x5FA#12 } : State).req = some 0x5FA#12 ∧ decode 0x5FA#12 = .instr (.send 0xFA#8))
    ∧ (({ start with seq := .run .recv 3 } : State).req = none ∧ ({ start with seq := .run .recv 3 } : State).seq = .run .recv 3)
    ∧ (({ start with consumer := [.takeFlag] } : State).req = none ∧ ({ start with consumer := [.takeFlag] } : State).seq = .idle
        ∧ ({ start with consumer := [.takeFlag] } : State).consumer = .takeFlag :: [])
    ∧ (start.req = none ∧ start.seq = .idle ∧ start.consumer = []) := by decide

/-- The words at the bounds of R60's three conditions, on both sides. -/
theorem witness_RefusedRequestChangesNothing :
    (({ start with req := some 0x800#12 } : State).req = some 0x800#12 ∧ RefusedWord 0x800#12) ∧ RefusedWord 0xFFF#12
    ∧ RefusedWord 0x001#12 ∧ RefusedWord 0x6FF#12 ∧ RefusedWord 0x102#12 ∧ RefusedWord 0x7FF#12
    ∧ ¬ RefusedWord 0x000#12 ∧ ¬ RefusedWord 0x101#12 ∧ ¬ RefusedWord 0x701#12 ∧ ¬ RefusedWord 0x5FF#12
    ∧ ∃ t, step start = .next t := by
  refine ⟨⟨rfl, ?_⟩, ?_, ?_, ?_, ?_, ?_, ?_, ?_, ?_, ?_, ⟨_, rfl⟩⟩ <;> unfold RefusedWord <;> decide

theorem witness_RequestAcceptedOnlyWhenIdle :
    (({ start with req := some 0x000#12 } : State).cfg.wf = true ∧ ({ start with req := some 0x000#12 } : State).req = some 0x000#12
        ∧ decode 0x000#12 = .instr .pulse ∧ ({ start with req := some 0x000#12 } : State).seq = .idle)
    ∧ (({ start with req := some 0x000#12, seq := .run .recv 3 } : State).req = some 0x000#12
        ∧ ({ start with req := some 0x000#12, seq := .run .recv 3 } : State).seq = .run .recv 3) := by decide

theorem witness_StepwiseRunReachesExec : start.cfg.wf = true ∧ start.seq = .idle ∧ start.req = none := by decide

theorem witness_MicrosecondEvaluatesInterrupt : start.req = none ∧ start.seq = .idle ∧ start.consumer = [] := by decide

/-- Both lengths the statement's clauses tell apart: 0 and 1. -/
theorem witness_ConsumerDelayCoalescesEvents :
    (({ start with consumer := [.delay 1] } : State).req = none ∧ ({ start with consumer := [.delay 1] } : State).seq = .idle
        ∧ ({ start with consumer := [.delay 1] } : State).consumer = .delay 1 :: [] ∧ 0 < 1)
    ∧ ({ start with consumer := [.delay 0] } : State).consumer = .delay 0 :: [] := by decide

theorem witness_ConsumerTakesFlagAtomically :
    ({ start with consumer := [.takeFlag] } : State).req = none ∧ ({ start with consumer := [.takeFlag] } : State).seq = .idle
      ∧ ({ start with consumer := [.takeFlag] } : State).consumer = .takeFlag :: [] := by decide

theorem witness_OnlyConsumerClearsFlag :
    ∃ t, step { start with hostTalking := true } = .next t ∧ ({ start with hostTalking := true } : State).hostTalking = true :=
  ⟨_, rfl, rfl⟩

/-- The bus host has held the data line low since 10, and it is 20. -/
theorem witness_SetieDoesNotLookBack :
    ({ on (datLow 10 99) with datPrev := false, now := 20 } : State).seq = .idle
      ∧ ({ on (datLow 10 99) with datPrev := false, now := 20 } : State).req = none
      ∧ ({ on (datLow 10 99) with datPrev := false, now := 20 } : State).consumer = []
      ∧ ({ on (datLow 10 99) with datPrev := false, now := 20 } : State).datPrev = false
      ∧ ({ on (datLow 10 99) with datPrev := false, now := 20 } : State).datLine = false := by decide

theorem witness_PulseClocksThreePhases : start.seq = .idle := rfl

theorem witness_SetbitDrivesThenClocks : (on (datLow 0 80)).seq = .idle := rfl

theorem witness_ReadbitReturnsDataLevel : (on (datLow 0 9)).seq = .idle := rfl

theorem witness_ReadlinesReturnsBothLevels : (on (clkLow 0 9)).seq = .idle := rfl

theorem witness_ReldatReleasesData : ({ start with datDrv := true, now := 80 } : State).seq = .idle := rfl

theorem witness_SetieWritesEnable : ({ start with ie := false } : State).seq = .idle := rfl

theorem witness_LineTransportFrame : start.seq = .idle
    ∧ ∀ i ∈ [Instr.pulse, .setbit true, .readbit, .readlines, .reldat],
        i = .pulse ∨ (∃ b, i = .setbit b) ∨ i = .readbit ∨ i = .readlines ∨ i = .reldat := by
  refine ⟨rfl, ?_⟩
  simp

/-- A bus host that holds the clock low throughout, beside one that drives nothing. -/
theorem witness_PulseDoesNotWatchClock : start.seq = .idle ∧ (Instr.setbit false = .pulse ∨ ∃ b, Instr.setbit false = .setbit b)
    ∧ ∀ u, ({ start with host := [⟨0, true, false⟩] } : State).hostDatDrv u = start.hostDatDrv u := by
  refine ⟨rfl, .inr ⟨false, rfl⟩, fun u => ?_⟩
  simp [State.hostDatDrv, hostDrivesFrom, start, State.reset]

theorem witness_SetbitZeroTriggersItself :
    start.seq = .idle ∧ start.ie = true ∧ start.datPrev = true ∧ 0 < start.cfg.tPulse := by decide

theorem witness_ReldatAndSetieIdempotent :
    start.seq = .idle ∧ (Instr.setie true = .reldat ∨ ∃ e, Instr.setie true = .setie e) := ⟨rfl, .inr ⟨true, rfl⟩⟩

/-- A state that meets the invariant, in the middle of a SEND's frame, its clock asserted. -/
def midFrame : State :=
  { start with
      seq := .run (.send 0x1C#8) 12, clkDrv := true, datDrv := true, ie := false, busy := true, tries := 1, shreg := 0x1C,
      lastSent := 0x1C, par := true, now := 20, host := clkLow 5000 6000, trace := [⟨20, .clkDrv true⟩, ⟨0, .datDrv true⟩] }

theorem midFrame_inv : Inv midFrame := by
  refine ⟨by decide, by decide, by show 12 < _; decide, by decide, by decide, fun _ => rfl, ?_, by decide, by decide, ?_, ?_, nofun⟩
  · intro n h
    exact absurd h (by have : (midFrame.seq.phase).bitn = none := by decide
                       rw [this]; simp)
  · intro h
    exact absurd h (by decide)
  · exact ⟨by decide, by decide, trivial⟩

/-- A state that meets the invariant between operations, left with the data line driven and the interrupt masked. -/
def leftLow : State := { start with datDrv := true, ie := false, hostTalking := true, now := 80 }

theorem leftLow_inv : Inv leftLow :=
  ⟨by decide, by decide, trivial, rfl, rfl, nofun, nofun, by decide, by decide, nofun, trivial, nofun⟩

theorem witness_BootSequenceRestoresIdleBus : Inv leftLow ∧ leftLow.seq = .idle := ⟨leftLow_inv, rfl⟩

/-- The first check that succeeds at both ends of its range: check 0, and with three attempts check 2. -/
theorem witness_SendCompletesFrame :
    (start.seq = .idle ∧ 0 < start.cfg.nAttempts
      ∧ (∀ k < 0, start.idleAt (checkTime start.cfg start.draws start.now k) = false)
      ∧ start.idleAt (checkTime start.cfg start.draws start.now 0) = true)
    ∧ (({ brisk with host := clkLow 0 15 } : State).seq = .idle ∧ 2 < ({ brisk with host := clkLow 0 15 } : State).cfg.nAttempts
      ∧ (∀ k < 2, ({ brisk with host := clkLow 0 15 } : State).idleAt
          (checkTime ({ brisk with host := clkLow 0 15 } : State).cfg 0 0 k) = false)
      ∧ ({ brisk with host := clkLow 0 15 } : State).idleAt
          (checkTime ({ brisk with host := clkLow 0 15 } : State).cfg 0 0 2) = true) := by decide

theorem witness_SendDropsOnBusyBus :
    ({ brisk with host := clkLow 0 25 } : State).seq = .idle ∧ 0 < ({ brisk with host := clkLow 0 25 } : State).cfg.nAttempts
      ∧ ∀ k < 3, ({ brisk with host := clkLow 0 25 } : State).idleAt
          (checkTime ({ brisk with host := clkLow 0 25 } : State).cfg 0 0 k) = false := by decide

theorem witness_SendDrivesElevenSlots : brisk.seq = .idle ∧ brisk.cfg.wf = true ∧ brisk.cfg.paritySeed = true
    ∧ exec (.send 0x1C#8) brisk = .next (after (.send 0x1C#8) brisk)
    ∧ (after (.send 0x1C#8) brisk).result ≠ some (.send .dropped) := by
  refine ⟨by decide, by decide, by decide, ?_, by decide +kernel⟩
  obtain ⟨t, ht⟩ := exec_total (.send 0x1C#8) brisk
  simp only [after, ht]

theorem witness_SendSlotTimesExact :
    ({ brisk with host := clkLow 0 15 } : State).seq = .idle ∧ ({ brisk with host := clkLow 0 15 } : State).cfg.timingMode = .exact
      ∧ 2 < ({ brisk with host := clkLow 0 15 } : State).cfg.nAttempts
      ∧ (∀ k < 2, ({ brisk with host := clkLow 0 15 } : State).idleAt (0 + k * 10) = false)
      ∧ 20 = 0 + 2 * 10 ∧ ({ brisk with host := clkLow 0 15 } : State).idleAt 20 = true := by decide

theorem witness_SendFrameIgnoresBusHost : start.seq = .idle ∧ 0 < start.cfg.nAttempts ∧ start.idleAt start.now = true
    ∧ ({ start with host := datLow 300 340 } : State).idleAt start.now = true := by decide

theorem witness_BackToBackFramesLeaveNoGap : start.seq = .idle ∧ 0 < start.cfg.nAttempts ∧ start.idleAt start.now = true
    ∧ start.hostClkDrv (pulseStart start.cfg start.draws start.now 11) = false
    ∧ start.hostDatDrv (pulseStart start.cfg start.draws start.now 11) = false := by decide

theorem witness_HeldDataLineDropsByteAndSetsFlag :
    (on [⟨0, false, true⟩]).seq = .idle ∧ 0 < (on [⟨0, false, true⟩]).cfg.nAttempts ∧ 0 < (on [⟨0, false, true⟩]).cfg.tRetry
      ∧ (on [⟨0, false, true⟩]).ie = true ∧ (on [⟨0, false, true⟩]).datPrev = true
      ∧ ∀ u, (on [⟨0, false, true⟩]).now ≤ u → (on [⟨0, false, true⟩]).hostDatDrv u = true := by
  refine ⟨by decide, by decide, by decide, by decide, by decide, fun u _ => ?_⟩
  simp [State.hostDatDrv, hostDrivesFrom, on]

theorem witness_SendAndRecvAlwaysEnd : start.seq = .idle ∧ start.cfg.wf = true ∧ start.cfg.timingMode = .exact := by decide

/-- V20's frame: 0xED with its parity bit. -/
def goodFrame : State := on (hostFrame [false, true, false, true, true, false, true, true, true, true, true])

/-- V22's frame: 0xF4 with a wrong parity bit. -/
def badFrame : State := on (hostFrame [false, false, false, true, false, true, true, true, true, true, true])

theorem witness_RecvDeliversByte : goodFrame.seq = .idle ∧ goodFrame.cfg.wf = true
    ∧ goodFrame.recvParityBit = frameParity goodFrame.cfg.paritySeed goodFrame.recvByte := by decide +kernel

theorem witness_RecvParityFailureSendsResend : badFrame.seq = .idle ∧ badFrame.cfg.wf = true
    ∧ badFrame.recvParityBit ≠ frameParity badFrame.cfg.paritySeed badFrame.recvByte := by decide +kernel

theorem witness_ParityFailureLeavesResendAsLastSent : badFrame.seq = .idle ∧ badFrame.cfg.wf = true
    ∧ badFrame.recvParityBit ≠ frameParity badFrame.cfg.paritySeed badFrame.recvByte
    ∧ badFrame.hostClkDrv (badFrame.recvPulse 11) = false ∧ badFrame.hostDatDrv (badFrame.recvPulse 11) = false := by
  decide +kernel

theorem witness_SpuriousRecvDeliversFF : start.seq = .idle ∧ start.cfg.wf = true ∧ start.cfg.paritySeed = true
    ∧ start.datDrv = false ∧ ∀ u, start.hostDatDrv u = false :=
  ⟨rfl, rfl, rfl, rfl, fun _ => rfl⟩

/-- V24: a start bit of 1, which RECV does not look at. -/
theorem witness_RecvLooksAtNineInstantsOnly : goodFrame.seq = .idle ∧ goodFrame.cfg.wf = true
    ∧ goodFrame.recvParityBit = frameParity goodFrame.cfg.paritySeed goodFrame.recvByte
    ∧ ∀ n, 1 ≤ n → n ≤ 9 → (on (hostFrame [true, true, false, true, true, false, true, true, true, true, true])).hostDatDrv
        (goodFrame.recvPulse n) = goodFrame.hostDatDrv (goodFrame.recvPulse n) := by
  refine ⟨rfl, rfl, by decide +kernel, fun n h1 h2 => ?_⟩
  interval_cases n <;> decide +kernel

theorem witness_RecvTimesExact : goodFrame.seq = .idle ∧ goodFrame.cfg.wf = true ∧ goodFrame.cfg.timingMode = .exact
    ∧ goodFrame.recvParityBit = frameParity goodFrame.cfg.paritySeed goodFrame.recvByte := by decide +kernel

theorem witness_OnlyTheirOperationsWriteRegisters : start.cfg.wf = true ∧ ∃ t, exec (.setie false) start = .next t :=
  ⟨rfl, exec_total _ _⟩

theorem witness_StepKeepsInputsAndHistory : ∃ t, step start = .next t := ⟨_, rfl⟩

/-- Inside a frame and between two operations. -/
theorem witness_EveryStepKeepsInvariant :
    (Inv midFrame ∧ ∃ t, step midFrame = .next t) ∧ Inv leftLow ∧ ∃ t, step leftLow = .next t :=
  ⟨⟨midFrame_inv, _, rfl⟩, leftLow_inv, _, rfl⟩

end Sys2Proof.Tests
end

/-! PROOFS. The family of the state (10_state.md): the invariant of every step, what steps and instructions leave alone, and
how requests are served. -/

namespace Sys2Proof.Machine

/-! ### The consumer's steps -/

/-- What a step of the consumer leaves of what the invariant speaks of: parameters, bus host, position, registers and events
stay, and time and the record only grow. -/
structure ConsumerFrame (s t : State) : Prop where
  cfg : t.cfg = s.cfg
  host : t.host = s.host
  seq : t.seq = s.seq
  clkDrv : t.clkDrv = s.clkDrv
  busy : t.busy = s.busy
  ie : t.ie = s.ie
  bitn : t.bitn = s.bitn
  tries : t.tries = s.tries
  events : t.events = s.events
  now : s.now ≤ t.now
  trace : ∃ new, t.trace = new ++ s.trace ∧ ∀ e ∈ new, e.time = s.now

theorem State.elapse_consumerFrame (n : Nat) (s : State) : ConsumerFrame s (s.elapse n) := by
  constructor <;> simp

theorem actConsumer_frame (a : ConsumerAct) (s : State) : ConsumerFrame s (actConsumer a s) := by
  cases a with
  | request w => exact ⟨rfl, rfl, rfl, rfl, rfl, rfl, rfl, rfl, rfl, Nat.le_refl _, [], rfl, nofun⟩
  | takeFlag => exact ⟨rfl, rfl, rfl, rfl, rfl, rfl, rfl, rfl, rfl, Nat.le_refl _, [_], rfl, by simp⟩
  | readLastSent => exact ⟨rfl, rfl, rfl, rfl, rfl, rfl, rfl, rfl, rfl, Nat.le_refl _, [_], rfl, by simp⟩
  | delay n => exact s.elapse_consumerFrame n

@[simp] theorem actConsumer_consumer (a : ConsumerAct) (s : State) : (actConsumer a s).consumer = s.consumer := by
  cases a with
  | delay n => exact s.elapse_consumer n
  | _ => rfl

theorem State.consumerStep_nil {s : State} (h : s.consumer = []) : s.consumerStep = s.tick := by
  simp only [State.consumerStep, h]

theorem State.consumerStep_cons {s : State} {a : ConsumerAct} {rest : List ConsumerAct} (h : s.consumer = a :: rest) :
    s.consumerStep = actConsumer a { s with consumer := rest } := by
  simp only [State.consumerStep, h]

theorem State.consumerStep_frame (s : State) : ConsumerFrame s s.consumerStep := by
  cases h : s.consumer with
  | nil => rw [State.consumerStep_nil h]; exact s.elapse_consumerFrame 1
  | cons a rest =>
    rw [State.consumerStep_cons h]
    obtain ⟨hcfg, hhost, hseq, hclk, hbusy, hie, hbitn, htries, hev, hnow, htr⟩ :=
      actConsumer_frame a { s with consumer := rest }
    exact ⟨hcfg, hhost, hseq, hclk, hbusy, hie, hbitn, htries, hev, hnow, htr⟩

/-- The consumer's actions are taken from the front of their list (R45). -/
theorem State.consumerStep_takes (s : State) : ∃ done, s.consumer = done ++ s.consumerStep.consumer := by
  cases h : s.consumer with
  | nil => exact ⟨[], by rw [State.consumerStep_nil h, State.tick_consumer, h]; rfl⟩
  | cons a rest => exact ⟨[a], by rw [State.consumerStep_cons h, actConsumer_consumer]; rfl⟩

/-! ### The invariant in two parts: what the sequencer's phase says of the registers, and what holds at any phase -/

/-- What phase `p` says of the registers. -/
structure Phase.Holds (p : Phase) (s : State) : Prop where
  clk : s.clkDrv = p.clk
  busy : s.busy = p.busy
  masked : p.masked = true → s.ie = false
  bitnCount : ∀ n, p.bitn = some n → s.bitn = n

/-- The invariant but for the sequencer: parameters, counters in range, record in order. -/
structure InRange (s : State) : Prop where
  cfg : s.cfg.wf = true
  host : hostScheduleWf s.host = true
  bitn : s.bitn ≤ 8
  tries : s.tries ≤ s.cfg.nAttempts
  trace : traceOrdered s.now s.trace
  events : ∀ e ∈ s.events, e.time ≤ s.now

theorem inv_iff {s : State} : Inv s ↔
    InRange s ∧ s.seq.phase.Holds s ∧ s.seq.inCode ∧ (s.seq.atIdleCheck = true → s.tries < s.cfg.nAttempts) :=
  ⟨fun h => ⟨⟨h.cfg, h.host, h.bitn, h.tries, h.trace, h.events⟩, ⟨h.clk, h.busy, h.masked, h.bitnCount⟩, h.seq,
      h.triesLeft⟩,
    fun ⟨hr, hp, hs, ht⟩ => ⟨hr.cfg, hr.host, hs, hp.clk, hp.busy, hp.masked, hp.bitnCount, hr.bitn, hr.tries, ht,
      hr.trace, hr.events⟩⟩

theorem Phase.Holds.congr {p : Phase} {s t : State} (h : p.Holds s) (hc : t.clkDrv = s.clkDrv) (hb : t.busy = s.busy)
    (hi : t.ie = s.ie) (hn : t.bitn = s.bitn) : p.Holds t :=
  ⟨hc.trans h.clk, hb.trans h.busy, fun hm => hi.trans (h.masked hm), fun n he => hn.trans (h.bitnCount n he)⟩

theorem traceOrdered_mono {m n : Nat} (hmn : m ≤ n) {l : List Stamped} (h : traceOrdered m l) : traceOrdered n l := by
  cases l with
  | nil => trivial
  | cons e es => exact ⟨Nat.le_trans h.1 hmn, h.2⟩

/-- A record stays in order when actions of this microsecond are added (R45). -/
theorem traceOrdered_append {now : Nat} {new old : List Stamped} (hn : ∀ e ∈ new, e.time = now)
    (h : traceOrdered now old) : traceOrdered now (new ++ old) := by
  induction new with
  | nil => exact h
  | cons e es ih =>
    obtain ⟨he, hes⟩ := List.forall_mem_cons.mp hn
    exact ⟨Nat.le_of_eq he, by rw [he]; exact ih hes⟩

/-- The ranges are kept by whatever keeps the inputs and the counters' bounds and adds to the record actions of this
microsecond. -/
theorem InRange.grow {s t : State} (h : InRange s) (hc : t.cfg = s.cfg) (hh : t.host = s.host) (hb : t.bitn ≤ 8)
    (ht : t.tries ≤ s.cfg.nAttempts) (he : ∀ e ∈ t.events, e ∈ s.events ∨ e.time = s.now) (hn : s.now ≤ t.now)
    (hr : ∃ new, t.trace = new ++ s.trace ∧ ∀ e ∈ new, e.time = s.now) : InRange t := by
  obtain ⟨new, htr, hnew⟩ := hr
  refine ⟨hc ▸ h.cfg, hh ▸ h.host, hb, hc ▸ ht, ?_, fun e hm => ?_⟩
  · rw [htr]
    exact traceOrdered_mono hn (traceOrdered_append hnew h.trace)
  · rcases he e hm with hold | hnow
    · exact Nat.le_trans (h.events e hold) hn
    · exact hnow ▸ hn

/-- A change of the sequencer's position, the result port, the request port or the refusals is none of the ranges'. -/
theorem InRange.relabel {s : State} (h : InRange s) (q : Seq) (r : Option Result) (p : Option ReqWord)
    (l : List ReqWord) : InRange { s with seq := q, result := r, req := p, refused := l } :=
  ⟨h.cfg, h.host, h.bitn, h.tries, h.trace, h.events⟩

/-- An action is recorded (R45). -/
theorem InRange.record {s : State} (h : InRange s) (a : Action) : InRange (s.record a) :=
  h.grow rfl rfl h.bitn h.tries (fun _ => .inl) (Nat.le_refl _) ⟨[_], rfl, by simp⟩

/-! ### Straight-line steps -/

@[simp] theorem State.wait_clkDrv (n : Nat) (s : State) : (s.wait n).clkDrv = s.clkDrv := by simp [State.wait]
@[simp] theorem State.wait_busy (n : Nat) (s : State) : (s.wait n).busy = s.busy := by simp [State.wait]
@[simp] theorem State.wait_ie (n : Nat) (s : State) : (s.wait n).ie = s.ie := by simp [State.wait]
@[simp] theorem State.wait_bitn (n : Nat) (s : State) : (s.wait n).bitn = s.bitn := by simp [State.wait]
@[simp] theorem State.wait_tries (n : Nat) (s : State) : (s.wait n).tries = s.tries := by simp [State.wait]
@[simp] theorem State.wait_cfg (n : Nat) (s : State) : (s.wait n).cfg = s.cfg := by simp [State.wait]
@[simp] theorem State.wait_lastSent (n : Nat) (s : State) : (s.wait n).lastSent = s.lastSent := by simp [State.wait]
@[simp] theorem State.wait_ok (n : Nat) (s : State) : (s.wait n).ok = s.ok := by simp [State.wait]
@[simp] theorem State.wait_events (n : Nat) (s : State) : (s.wait n).events = s.events := by simp [State.wait]

/-- A straight-line step takes the registers from its phase to the next one (R17, R19, R24, R99). -/
theorem Phase.Holds.apply {p : Phase} {s : State} (h : p.Holds s) (a : Act) : (p.after (.act a)).Holds (a.apply s) := by
  cases a with
  | clk d => exact ⟨rfl, h.busy, h.masked, h.bitnCount⟩
  | setBusy v => exact ⟨h.clk, rfl, h.masked, h.bitnCount⟩
  | setIe v => exact ⟨h.clk, h.busy, fun hm => Bool.not_eq_true' v ▸ hm, h.bitnCount⟩
  | clearBitn => exact ⟨h.clk, h.busy, h.masked, fun n hn => Option.some.inj hn⟩
  | nextBitn =>
    refine ⟨h.clk, h.busy, h.masked, fun n hn => ?_⟩
    obtain ⟨m, hm, rfl⟩ := Option.map_eq_some_iff.mp hn
    exact congrArg (· + 1) (h.bitnCount m hm)
  | wait d => exact h.congr (s.wait_clkDrv _) (s.wait_busy _) (s.wait_ie _) (s.wait_bitn _)
  | _ => exact h.congr rfl rfl rfl rfl

/-- Only the end of a loop's round counts `bitn` up (R24). -/
theorem Act.apply_bitn_le {a : Act} {s : State} (h : s.bitn ≤ 8) (hroom : a = .nextBitn → s.bitn < 8) :
    (a.apply s).bitn ≤ 8 := by
  cases a with
  | nextBitn => exact hroom rfl
  | clearBitn => exact Nat.zero_le _
  | wait d => exact (s.wait_bitn _).trans_le h
  | _ => exact h

/-- No straight-line step counts `tries` up (R25). -/
theorem Act.apply_tries_le (a : Act) (s : State) : (a.apply s).tries ≤ s.tries := by
  cases a with
  | clearTries => exact Nat.zero_le _
  | wait d => exact (s.wait_tries _).le
  | _ => exact Nat.le_refl _

theorem InRange.apply {s : State} (h : InRange s) {a : Act} (hroom : a = .nextBitn → s.bitn < 8) :
    InRange (a.apply s) := by
  have hf := a.frame s
  exact h.grow hf.cfg hf.host (Act.apply_bitn_le h.bitn hroom) (Nat.le_trans (a.apply_tries_le s) h.tries)
    (fun e he => .inl (hf.events ▸ he)) hf.now hf.trace

/-- Where the phase has room for a bit, the count is below 8 (R24). -/
theorem Phase.Holds.bitn_lt {p : Phase} {s : State} (h : p.Holds s) (hroom : p.roomForBit = true) : s.bitn < 8 := by
  unfold Phase.roomForBit at hroom
  split at hroom
  case h_1 n hn => rw [h.bitnCount n hn]; exact of_decide_eq_true hroom
  case h_2 => cases hroom

theorem Config.wf_pos {c : Config} (h : c.wf = true) : 0 < c.nAttempts := by
  simp only [Config.wf, Bool.and_eq_true, decide_eq_true_eq] at h
  exact h.1

theorem length_of_getElem? {op : Instr} {k : Nat} {m : MicroOp} (h : (code op)[k]? = some m) : k < (code op).length :=
  (List.getElem?_eq_some_iff.mp h).1

theorem Seq.atIdleCheck_run {op : Instr} {k : Nat} :
    (Seq.run op k).atIdleCheck = true ↔ (code op)[k]? = some .idleCheck := by
  simp [Seq.atIdleCheck]

/-! ### The invariant under each kind of step -/

/-- The sequencer moves to a step of the operation's code whose phase the registers are in. -/
theorem inv_goto {s : State} {op : Instr} {k : Nat} (hr : InRange s) (hp : (Seq.run op k).phase.Holds s)
    (hk : k < (code op).length) (ht : (code op)[k]? = some .idleCheck → s.tries < s.cfg.nAttempts) :
    Inv (s.goto op k) :=
  inv_iff.mpr ⟨hr.relabel (.run op k) s.result s.req s.refused, hp.congr rfl rfl rfl rfl, hk,
    fun h => ht (Seq.atIdleCheck_run.mp h)⟩

/-- An operation ends between frames. -/
theorem inv_finish {s : State} {p : Phase} (hr : InRange s) (hp : p.Holds s) (hq : p.quiet = true) (r : Option Result) :
    Inv (s.finish r) := by
  simp only [Phase.quiet, Bool.and_eq_true, Bool.not_eq_true'] at hq
  obtain ⟨hclk, hbusy⟩ := hq
  exact inv_iff.mpr ⟨hr.relabel .idle r s.req s.refused, ⟨hp.clk.trans hclk, hp.busy.trans hbusy, nofun, nofun⟩, trivial,
    nofun⟩

theorem inv_finishSend {s : State} {p : Phase} (hr : InRange s) (hp : p.Holds s) (hq : p.quiet = true) (op : Instr)
    (st : SendStatus) : Inv (s.finishSend op st) := by
  cases op <;> exact inv_finish hr hp hq _

section Perform

variable {s : State} {op : Instr} {k : Nat} (h : Inv s) (hs : s.seq = .run op k)

include h hs

theorem inv_perform_act {a : Act} (hm : (code op)[k]? = some (.act a)) :
    Inv ((MicroOp.act a).perform op k s) := by
  obtain ⟨hr, hp, -, -⟩ := inv_iff.mp h
  rw [hs] at hp
  have hok := stepOk_all op (length_of_getElem? hm)
  simp only [stepOk, hm, Bool.and_eq_true, Bool.or_eq_true, decide_eq_true_eq, bne_iff_ne, beq_iff_eq] at hok
  obtain ⟨⟨hk, hroom⟩, hnext⟩ := hok
  refine inv_goto (hr.apply fun ha => hp.bitn_lt (hroom.resolve_left fun hne => hne ha)) ?_ hk fun hc => ?_
  · rw [phase_succ hm]; exact hp.apply a
  · obtain rfl := hnext.resolve_left fun hne => hne hc
    exact Config.wf_pos hr.cfg

theorem inv_perform_idleCheck (hm : (code op)[k]? = some .idleCheck) : Inv (MicroOp.idleCheck.perform op k s) := by
  obtain ⟨hr, hp, -, ht⟩ := inv_iff.mp h
  rw [hs] at hp ht
  have hlt := ht (Seq.atIdleCheck_run.mpr hm)
  have hok := stepOk_all op (length_of_getElem? hm)
  simp only [stepOk, hm, Bool.and_eq_true, decide_eq_true_eq, bne_iff_ne, beq_iff_eq] at hok
  obtain ⟨⟨⟨hk, hretry⟩, hframe⟩, hphase⟩ := hok
  have hr' : InRange ((s.sampleClk.sampleDat).writeTries (s.tries + 1)) :=
    hr.grow rfl rfl hr.bitn hlt (fun e he => .inl he) (Nat.le_refl _) ⟨[_, _], rfl, by simp⟩
  have hp' : (Seq.run op k).phase.Holds ((s.sampleClk.sampleDat).writeTries (s.tries + 1)) := hp.congr rfl rfl rfl rfl
  show Inv ((_ : State).goto op (if s.busIdle then k + 3 else k + 1))
  split
  · exact inv_goto hr' (hphase ▸ hp') hk fun hc => absurd hc hframe
  · exact inv_goto hr' (phase_succ hm ▸ hp') (by omega) fun hc => absurd hc hretry

theorem inv_perform_retryTest (hm : (code op)[k]? = some .retryTest) : Inv (MicroOp.retryTest.perform op k s) := by
  obtain ⟨hr, hp, -, -⟩ := inv_iff.mp h
  rw [hs] at hp
  have hok := stepOk_all op (length_of_getElem? hm)
  simp only [stepOk, hm, Bool.and_eq_true, decide_eq_true_eq, beq_iff_eq] at hok
  obtain ⟨⟨⟨-, hcheck⟩, hquiet⟩, hphase⟩ := hok
  show Inv (if s.cfg.nAttempts ≤ s.tries then _ else _)
  split
  case isTrue => exact inv_finishSend hr hp hquiet op .dropped
  case isFalse hleft => exact inv_goto hr (hphase ▸ hp) (length_of_getElem? hcheck) fun _ => Nat.lt_of_not_le hleft

theorem inv_perform_verdict (hm : (code op)[k]? = some .verdict) : Inv (MicroOp.verdict.perform op k s) := by
  obtain ⟨hr, hp, -, -⟩ := inv_iff.mp h
  rw [hs] at hp
  have hok := stepOk_all op (length_of_getElem? hm)
  simp only [stepOk, hm, Bool.and_eq_true, decide_eq_true_eq, bne_iff_ne] at hok
  obtain ⟨⟨hquiet, hk⟩, hnext⟩ := hok
  show Inv (if s.ok = true then _ else _)
  split
  · have hr' : InRange (s.emit s.shreg) :=
      hr.grow rfl rfl hr.bitn hr.tries (by simp +contextual [or_imp]) (Nat.le_refl _) ⟨[], rfl, nofun⟩
    exact inv_finish hr' (hp.congr rfl rfl rfl rfl) hquiet _
  · exact inv_goto hr (phase_succ hm ▸ hp) hk fun hc => absurd hc hnext

/-- Every step of an operation's code keeps the invariant. -/
theorem inv_perform {m : MicroOp} (hm : (code op)[k]? = some m) : Inv (m.perform op k s) := by
  obtain ⟨hr, hp, -, -⟩ := inv_iff.mp h
  rw [hs] at hp
  have hok := stepOk_all op (length_of_getElem? hm)
  cases m with
  | act a => exact inv_perform_act h hs hm
  | idleCheck => exact inv_perform_idleCheck h hs hm
  | retryTest => exact inv_perform_retryTest h hs hm
  | verdict => exact inv_perform_verdict h hs hm
  | sent => exact inv_finishSend hr hp (by simpa only [stepOk, hm] using hok) op .sent
  | readBit => exact inv_finish (hr.record _) (hp.congr rfl rfl rfl rfl) (by simpa only [stepOk, hm] using hok) _
  | readLines =>
    exact inv_finish ((hr.record _).record _) (hp.congr rfl rfl rfl rfl) (by simpa only [stepOk, hm] using hok) _
  | done => exact inv_finish hr hp (by simpa only [stepOk, hm] using hok) none

end Perform

/-- A microstep keeps the invariant: it is never past the end of the code (R27). -/
theorem inv_seqStep {s : State} (h : Inv s) : Inv s.seqStep := by
  rcases seqStep_cases s with ⟨-, he⟩ | ⟨op, k, hs, hnone, -⟩ | ⟨op, k, m, hs, hm, he⟩
  · rw [he]; exact h
  · have hk : (Seq.run op k).inCode := hs ▸ h.seq
    exact absurd hk (Nat.not_lt.mpr (List.getElem?_eq_none_iff.mp hnone))
  · rw [he]; exact inv_perform h hs hm

/-- An operation starts between frames, in the phase of `IDLE`, and not with an idle check. -/
theorem inv_start {s : State} (h : Inv s) (hs : s.seq = .idle) (i : Instr) : Inv (s.goto i 0) := by
  obtain ⟨hr, hp, -, -⟩ := inv_iff.mp h
  rw [hs] at hp
  obtain ⟨hlen, hfirst⟩ := code_start i
  exact inv_goto hr hp hlen fun hc => absurd hc hfirst

theorem inv_consumerStep {s : State} (h : Inv s) : Inv s.consumerStep := by
  obtain ⟨hr, hp, hq, ht⟩ := inv_iff.mp h
  have hf := s.consumerStep_frame
  refine inv_iff.mpr ⟨?_, ?_, hf.seq ▸ hq, by rw [hf.seq, hf.tries, hf.cfg]; exact ht⟩
  · exact hr.grow hf.cfg hf.host (hf.bitn.trans_le hr.bitn) (hf.tries.trans_le hr.tries)
      (fun e he => .inl (hf.events ▸ he)) hf.now hf.trace
  · rw [hf.seq]
    exact hp.congr hf.clkDrv hf.busy hf.ie hf.bitn

/-- Serving the port and refusing a word are none of the invariant's business. -/
theorem Inv.relabel {s : State} (h : Inv s) (p : Option ReqWord) (l : List ReqWord) :
    Inv { s with req := p, refused := l } := by
  obtain ⟨hr, hp, hq, ht⟩ := inv_iff.mp h
  exact inv_iff.mpr ⟨hr.relabel s.seq s.result p l, hp.congr rfl rfl rfl rfl, hq, ht⟩

/-- Settles O46: each microstep, the start of an operation, the consumer's step and the bookkeeping of a request keep the
invariant, so every step does. -/
theorem everyStepKeepsInvariant : Obligations.EveryStepKeepsInvariant := by
  unfold Obligations.EveryStepKeepsInvariant
  intro s t h hstep
  exact step_induct (P := Inv) (fun _ => inv_seqStep) (fun _ i hs h => inv_start h hs i)
    (fun u w h => h.relabel u.req (w :: u.refused)) (fun u h => h.relabel none u.refused)
    (fun _ _ _ => inv_consumerStep) h hstep


/-! ### What a step leaves of the inputs and of the past -/

/-- The inputs of `s` and what was recorded and delivered by then are kept in `t`, a later state (R12, R14, R45). -/
structure History (s t : State) : Prop where
  cfg : t.cfg = s.cfg
  host : t.host = s.host
  consumer : ∃ done, s.consumer = done ++ t.consumer
  now : s.now ≤ t.now
  trace : ∃ new, t.trace = new ++ s.trace
  events : ∃ new, t.events = new ++ s.events

theorem History.refl (s : State) : History s s := ⟨rfl, rfl, ⟨[], rfl⟩, Nat.le_refl _, ⟨[], rfl⟩, ⟨[], rfl⟩⟩

theorem History.trans {a b c : State} (h : History a b) (g : History b c) : History a c := by
  obtain ⟨x, hx⟩ := h.trace
  obtain ⟨y, hy⟩ := g.trace
  obtain ⟨v, hv⟩ := h.events
  obtain ⟨w, hw⟩ := g.events
  obtain ⟨d, hd⟩ := h.consumer
  obtain ⟨e, he⟩ := g.consumer
  exact ⟨g.cfg.trans h.cfg, g.host.trans h.host, ⟨d ++ e, by rw [hd, he, List.append_assoc]⟩,
    Nat.le_trans h.now g.now, ⟨y ++ x, by rw [hy, hx, List.append_assoc]⟩, ⟨w ++ v, by rw [hw, hv, List.append_assoc]⟩⟩

theorem MicroFrame.history {s t : State} (h : MicroFrame s t) : History s t :=
  ⟨h.cfg, h.host, ⟨[], h.consumer.symm⟩, h.now, h.trace, h.events⟩

theorem State.consumerStep_history (s : State) : History s s.consumerStep := by
  have hf := s.consumerStep_frame
  obtain ⟨new, htr, -⟩ := hf.trace
  exact ⟨hf.cfg, hf.host, s.consumerStep_takes, hf.now, ⟨new, htr⟩, ⟨[], hf.events⟩⟩

/-- Settles O44: microsteps and the consumer's steps keep the inputs and the past, and the bookkeeping of a request touches
neither. -/
theorem stepKeepsInputsAndHistory : Obligations.StepKeepsInputsAndHistory := by
  unfold Obligations.StepKeepsInputsAndHistory
  intro s t hstep
  have key : History s t :=
    step_induct (P := History s) (fun u h => h.trans u.seqStep_frame.history)
      (fun _ _ _ h => ⟨h.cfg, h.host, h.consumer, h.now, h.trace, h.events⟩)
      (fun _ _ h => ⟨h.cfg, h.host, h.consumer, h.now, h.trace, h.events⟩)
      (fun _ h => ⟨h.cfg, h.host, h.consumer, h.now, h.trace, h.events⟩)
      (fun u _ _ h => h.trans u.consumerStep_history) (.refl s) hstep
  exact ⟨key.cfg, key.host, key.consumer, key.now, key.trace, key.events⟩

/-! ### The flag -/

/-- The passing of time never clears the flag (R104). -/
theorem State.elapse_keeps_flag {s : State} (h : s.hostTalking = true) (n : Nat) : (s.elapse n).hostTalking = true := by
  rw [State.elapse_hostTalking, h, Bool.true_or]

/-- The consumer clears the flag by its read-and-clear only (R20). -/
theorem State.consumerStep_keeps_flag {s : State} (h : s.hostTalking = true) :
    s.consumerStep.hostTalking = true ∨ ∃ rest, s.consumer = .takeFlag :: rest := by
  cases hc : s.consumer with
  | nil => rw [State.consumerStep_nil hc]; exact .inl (State.elapse_keeps_flag h 1)
  | cons a rest =>
    rw [State.consumerStep_cons hc]
    cases a with
    | takeFlag => exact .inr ⟨rest, rfl⟩
    | request w => exact .inl h
    | readLastSent => exact .inl h
    | delay n => exact .inl (State.elapse_keeps_flag (s := { s with consumer := rest }) h n)

/-- Settles O13, by the four things a step can do. -/
theorem onlyConsumerClearsFlag : Obligations.OnlyConsumerClearsFlag := by
  unfold Obligations.OnlyConsumerClearsFlag
  intro s t hstep hflag
  rcases step_cases hstep with ⟨w, -, rfl⟩ | ⟨w, i, -, -, he⟩ | ⟨-, -, rfl⟩ | ⟨hreq, hseq, rfl⟩
  · exact .inl hflag
  · exact .inl ((exec_frame he).1.hostTalking hflag)
  · exact .inl (s.seqStep_frame.hostTalking hflag)
  · exact (State.consumerStep_keeps_flag hflag).imp id fun htake => ⟨hreq, hseq, htake⟩

/-- Settles O12, by the consumer's action. -/
theorem consumerTakesFlagAtomically : Obligations.ConsumerTakesFlagAtomically := by
  unfold Obligations.ConsumerTakesFlagAtomically
  intro s rest hreq hseq hc
  simp only [step, hreq, hseq, State.consumerStep_cons hc]
  rfl

/-! ### What an accepted operation writes -/

theorem ByteSrc.value_congr (b : ByteSrc) {s t : State} (h : t.cfg = s.cfg) : b.value t = b.value s := by
  cases b with
  | lit b => rfl
  | resend => exact congrArg Config.resendReq h

/-- What SEND's loop writes of the registers other operations share: `last_sent`, if at all, with the byte it sends. -/
structure SendWrites (b : Byte) (s t : State) : Prop where
  lastSent : t.lastSent = s.lastSent ∨ t.lastSent = b
  ok : t.ok = s.ok
  events : t.events = s.events

theorem sendFrom_writes (b : ByteSrc) (n : Nat) (s : State) : SendWrites (b.value s) s (sendFrom b n s).2 := by
  induction n generalizing s with
  | zero => exact ⟨.inl rfl, rfl, rfl⟩
  | succ n ih =>
    rw [sendFrom]
    split
    · have hd := frameDone ((s.sampleClk.sampleDat).writeTries (s.tries + 1)) b
      exact ⟨.inr (hd.lastSent.trans (b.value_congr rfl)), hd.ok, hd.events⟩
    · have hw := ih (((s.sampleClk.sampleDat).writeTries (s.tries + 1)).wait s.cfg.tRetry)
      rw [b.value_congr (s := s) (by simp)] at hw
      exact ⟨by simpa using hw.lastSent, by simpa using hw.ok, by simpa using hw.events⟩

/-- R31: which of the shared registers, and the events, operation `i` may change between `s` and `t`. -/
structure WritesOnly (i : Instr) (s t : State) : Prop where
  ie : t.ie ≠ s.ie → (∃ b, i = .send b) ∨ i = .recv ∨ ∃ e, i = .setie e
  busy : t.busy ≠ s.busy → (∃ b, i = .send b) ∨ i = .recv
  lastSent : t.lastSent ≠ s.lastSent → i = .send t.lastSent ∨ (i = .recv ∧ t.lastSent = s.cfg.resendReq)
  ok : t.ok ≠ s.ok → i = .recv
  events : t.events ≠ s.events → i = .recv

/-- An operation that writes none of them but the enable, which only SETIE does. -/
theorem WritesOnly.of_eq {i : Instr} {s t : State} (hie : t.ie = s.ie ∨ ∃ e, i = .setie e) (hbusy : t.busy = s.busy)
    (hlast : t.lastSent = s.lastSent) (hok : t.ok = s.ok) (hev : t.events = s.events) : WritesOnly i s t :=
  ⟨fun h => .inr (.inr (hie.resolve_left h)), fun h => absurd hbusy h, fun h => absurd hlast h, fun h => absurd hok h,
    fun h => absurd hev h⟩

theorem WritesOnly.send {b : Byte} {s t : State} (h : SendWrites b s t) : WritesOnly (.send b) s t :=
  ⟨fun _ => .inl ⟨b, rfl⟩, fun _ => .inl ⟨b, rfl⟩, fun hne => .inl (congrArg _ (h.lastSent.resolve_left hne).symm),
    fun hne => absurd h.ok hne, fun hne => absurd h.events hne⟩

theorem WritesOnly.recv {s t : State} (h : t.lastSent = s.lastSent ∨ t.lastSent = s.cfg.resendReq) :
    WritesOnly .recv s t :=
  ⟨fun _ => .inr (.inl rfl), fun _ => .inr rfl, fun hne => .inr ⟨rfl, h.resolve_left hne⟩, fun _ => rfl, fun _ => rfl⟩

theorem State.finishSend_eq_finish (s : State) (op : Instr) (st : SendStatus) : ∃ r, s.finishSend op st = s.finish r := by
  cases op <;> exact ⟨_, rfl⟩

/-- R27, R31: an accepted operation comes to its end, and by then it has written its own registers only. -/
theorem request_ends {s : State} (hs : s.seq = .idle) (hN : 0 < s.cfg.nAttempts) (i : Instr) :
    ∃ u r, s.request i = .next (u.finish r) ∧ WritesOnly i s u := by
  cases i with
  | pulse =>
    exact ⟨_, _, request_pulse hs, .of_eq (.inl (pulse_ie s)) (pulse_busy s) (pulse_lastSent s) (pulse_ok s)
      (pulse_events s)⟩
  | setbit b =>
    have hreq := request_setbit hs b
    rw [setBit_lit] at hreq
    exact ⟨_, _, hreq, .of_eq (.inl (pulse_ie _)) (pulse_busy _) (pulse_lastSent _) (pulse_ok _) (pulse_events _)⟩
  | readbit => exact ⟨_, _, request_readbit hs, .of_eq (.inl rfl) rfl rfl rfl rfl⟩
  | readlines => exact ⟨_, _, request_readlines hs, .of_eq (.inl rfl) rfl rfl rfl rfl⟩
  | reldat => exact ⟨_, _, request_reldat hs, .of_eq (.inl rfl) rfl rfl rfl rfl⟩
  | setie e => exact ⟨_, _, request_setie hs e, .of_eq (.inr ⟨e, rfl⟩) rfl rfl rfl rfl⟩
  | send b =>
    obtain ⟨r, hr⟩ := State.finishSend_eq_finish _ (.send b) _
    have hw := sendFrom_writes (.lit b) s.cfg.nAttempts (s.writeTries 0)
    exact ⟨_, r, (request_send hs hN b).trans (congrArg _ hr), .send ⟨hw.lastSent, hw.ok, hw.events⟩⟩
  | recv =>
    have hd := recvDone s
    have hreq := request_recv hs hN
    generalize applyAll recvActs s = u at hd hreq
    split at hreq
    · exact ⟨_, _, hreq, .recv (.inl hd.lastSent)⟩
    · obtain ⟨r, hr⟩ := State.finishSend_eq_finish _ .recv _
      have hw := (sendFrom_writes .resend s.cfg.nAttempts (u.writeTries 0)).lastSent
      exact ⟨_, r, hreq.trans (congrArg _ hr), .recv (by simpa [ByteSrc.value, hd.cfg, hd.lastSent] using hw)⟩

/-- An instruction's meaning in `IDLE` leaves the sequencer in `IDLE` (R27, R97). -/
theorem exec_ends_idle {i : Instr} {s t : State} (hs : s.seq = .idle) (hN : 0 < s.cfg.nAttempts)
    (h : exec i s = .next t) : t.seq = .idle := by
  obtain ⟨u, r, hu, -⟩ := request_ends hs hN i
  rw [exec_eq_request, hu, Host.Outcome.next.injEq] at h
  rw [← h, State.finish_seq]

theorem exec_writes {i : Instr} {s t : State} (hN : 0 < s.cfg.nAttempts) (h : exec i s = .next t) : WritesOnly i s t := by
  rcases exec_cases h with ⟨hs, -⟩ | ⟨-, rfl⟩
  · obtain ⟨u, r, hu, hw⟩ := request_ends hs hN i
    rw [exec_eq_request, hu, Host.Outcome.next.injEq] at h
    subst h
    exact ⟨hw.ie, hw.busy, hw.lastSent, hw.ok, hw.events⟩
  · exact .of_eq (.inl rfl) rfl rfl rfl rfl

/-- Settles O43, from what an accepted operation writes and what every instruction leaves alone. -/
theorem onlyTheirOperationsWriteRegisters : Obligations.OnlyTheirOperationsWriteRegisters := by
  unfold Obligations.OnlyTheirOperationsWriteRegisters
  intro i s t hwf h
  have hw := exec_writes (Config.wf_pos hwf) h
  have hf := (exec_frame h).1
  exact ⟨hw.ie, hw.busy, hw.lastSent, hw.ok, hw.events, hf.cfg, hf.host, hf.consumer, hf.req⟩

/-! ### Steps and requests -/

theorem step_request {s : State} {w : ReqWord} {i : Instr} (hreq : s.req = some w) (hd : decode w = .instr i) :
    step s = exec i s.takeRequest := by
  simp only [step, serveRequest, hreq, hd]

theorem step_running {s : State} {op : Instr} {k : Nat} (hreq : s.req = none) (hs : s.seq = .run op k) :
    step s = .next s.seqStep := by
  simp only [step, hreq, hs]

theorem step_consumer {s : State} (hreq : s.req = none) (hs : s.seq = .idle) : step s = .next s.consumerStep := by
  simp only [step, hreq, hs]

/-- Settles O5: the four cases of a step, one by one. -/
theorem stepRunsDecodedInstruction : Obligations.StepRunsDecodedInstruction := by
  unfold Obligations.StepRunsDecodedInstruction
  refine ⟨fun s w i hreq hd => step_request hreq hd, fun s op k hreq hs => step_running hreq hs,
    fun s a rest hreq hs hc => ?_, fun s hreq hs hc => ?_⟩
  · rw [step_consumer hreq hs, State.consumerStep_cons hc]
  · rw [step_consumer hreq hs, State.consumerStep_nil hc]

/-- Settles O26: the reset state's fields. -/
theorem resetLeavesTableValues : Obligations.ResetLeavesTableValues := by
  unfold Obligations.ResetLeavesTableValues
  exact ⟨rfl, rfl, rfl, rfl, rfl, rfl, rfl, rfl⟩

/-! ### A word that decodes is the encoding of what it decodes to -/

/-- The two fields of a word make up the word (R58). -/
theorem encodeRequest_requestFields (w : ReqWord) : encodeRequest (requestFields w) = w := by
  apply BitVec.eq_of_getLsbD_eq
  intro j hj
  simp only [encodeRequest, requestFields, BitVec.getLsbD_append, BitVec.getLsbD_extractLsb']
  split
  · simp_all
  · simp [show j - 8 < 4 by omega, show 8 + (j - 8) = j by omega]

/-- A byte below 2 is its own lowest bit. -/
theorem zextBit_getLsbD_zero {a : Byte} (h : a.toNat < 2) : zextBit (a.getLsbD 0) = a := by
  obtain h0 | h1 : a.toNat = 0 ∨ a.toNat = 1 := by omega
  · obtain rfl : a = 0#8 := BitVec.eq_of_toNat_eq h0
    rfl
  · obtain rfl : a = 1#8 := BitVec.eq_of_toNat_eq h1
    rfl

theorem decodeNoArg_eq_instr {r : Request} {i j : Instr} (h : decodeNoArg r i = .instr j) : j = i ∧ r.arg = 0x00 := by
  unfold decodeNoArg at h
  split at h
  case isTrue h0 => exact ⟨(Decoded.instr.inj h).symm, BitVec.eq_of_toNat_eq h0⟩
  case isFalse => cases h

theorem decodeBitArg_eq_instr {r : Request} {i : Bool → Instr} {j : Instr} (h : decodeBitArg r i = .instr j) :
    ∃ b, j = i b ∧ r.arg = zextBit b := by
  unfold decodeBitArg at h
  split at h
  case isTrue h2 => exact ⟨_, (Decoded.instr.inj h).symm, (zextBit_getLsbD_zero h2).symm⟩
  case isFalse => cases h

theorem Request.eq_mk {r : Request} {n : Nat} {a : Byte} (hop : r.op.toNat = n) (harg : r.arg = a) :
    r = ⟨BitVec.ofNat 4 n, a⟩ := by
  obtain ⟨op, arg⟩ := r
  subst hop harg
  simp

/-- The fields that decode to an instruction are the instruction's own (R59). -/
theorem request_of_decodeRequest {r : Request} {i : Instr} (h : decodeRequest r = .instr i) : i.request = r := by
  unfold decodeRequest at h
  split at h
  case h_6 hn => cases h; exact (Request.eq_mk hn rfl).symm
  case h_9 => cases h
  case h_2 hn => obtain ⟨b, rfl, ha⟩ := decodeBitArg_eq_instr h; exact (Request.eq_mk hn ha).symm
  case h_8 hn => obtain ⟨b, rfl, ha⟩ := decodeBitArg_eq_instr h; exact (Request.eq_mk hn ha).symm
  all_goals
    rename_i hn
    obtain ⟨rfl, ha⟩ := decodeNoArg_eq_instr h
    exact (Request.eq_mk hn ha).symm

theorem encode_of_decode {w : ReqWord} {i : Instr} (h : decode w = .instr i) : encode i = w := by
  rw [encode, request_of_decodeRequest h, encodeRequest_requestFields]

/-- A word presented while an operation runs is refused, whether it decodes or not (R28, R60). -/
theorem step_refuses_running {s : State} {w : ReqWord} {op : Instr} {k : Nat} (hreq : s.req = some w)
    (hs : s.seq = .run op k) : step s = .next (s.takeRequest.refuse w) := by
  cases hd : decode w with
  | instr i => rw [step_request hreq hd, exec_eq_request, request_running (s := s.takeRequest) hs, encode_of_decode hd]
  | reservedOp _ => simp only [step, serveRequest, hreq, hd]
  | strayArg _ _ => simp only [step, serveRequest, hreq, hd]

/-- Settles O7: an accepted request ends in `IDLE`, any other is refused. -/
theorem requestAcceptedOnlyWhenIdle : Obligations.RequestAcceptedOnlyWhenIdle := by
  unfold Obligations.RequestAcceptedOnlyWhenIdle
  refine ⟨fun s w i hwf hreq hd hs => ?_, fun s w op k hreq hs => step_refuses_running hreq hs⟩
  obtain ⟨t, ht⟩ := exec_total i s.takeRequest
  obtain ⟨hf, hrefused⟩ := exec_frame ht
  exact ⟨t, (step_request hreq hd).trans ht, exec_ends_idle (s := s.takeRequest) hs (Config.wf_pos hwf) ht, hf.req,
    hrefused hs⟩

/-! ### An operation run one pseudocode step at a time -/

/-- With nothing at the port, machine steps make the microsteps of the running operation, one each (R27). -/
theorem run_runSteps (m : Nat) {s : State} (hreq : s.req = none) :
    ∃ n, Host.Core.run Sys2Proof.core n s = .next (s.runSteps m) := by
  induction m generalizing s with
  | zero => exact ⟨0, rfl⟩
  | succ m ih =>
    cases hs : s.seq with
    | idle => exact ⟨0, by rw [runSteps_idle hs]; rfl⟩
    | run op k =>
      obtain ⟨n, hn⟩ := ih (s.seqStep_frame.req.trans hreq)
      refine ⟨n + 1, ?_⟩
      have hstep : Sys2Proof.core.step s = .next s.seqStep := step_running hreq hs
      simp only [Host.Core.run, hstep, State.runSteps, hs]
      exact hn

/-- Settles O9: `exec` makes the microsteps that the machine steps make, and ends in `IDLE`. -/
theorem stepwiseRunReachesExec : Obligations.StepwiseRunReachesExec := by
  unfold Obligations.StepwiseRunReachesExec
  intro i s hwf hs hreq
  obtain ⟨n, hn⟩ := run_runSteps (Config.stepBound s.cfg) (s := s.goto i 0) hreq
  have ht : exec i s = .next ((s.goto i 0).runSteps (Config.stepBound s.cfg)) := by
    rw [exec_eq_request, request_idle hs]
  exact ⟨n, _, ht, exec_ends_idle hs (Config.wf_pos hwf) ht, hn⟩

end Sys2Proof.Machine

/-! PROOFS. The family of memory (20_memory.md): the idempotent operations, and a SEND whose frame the bus host cannot
disturb. -/

namespace Sys2Proof.Machine

/-! ### Two releases, two writes of the enable -/

/-- Settles O23: the second operation writes what the first one left, so only its record is new. -/
theorem reldatAndSetieIdempotent : Obligations.ReldatAndSetieIdempotent := by
  unfold Obligations.ReldatAndSetieIdempotent
  rintro i s hs (rfl | ⟨e, rfl⟩)
  · exact ⟨_, _, (exec_eq_request _ _).trans (request_reldat hs),
      (exec_eq_request _ _).trans (request_reldat (State.finish_seq _ none)), rfl⟩
  · exact ⟨_, _, (exec_eq_request _ _).trans (request_setie hs e),
      (exec_eq_request _ _).trans (request_setie (State.finish_seq _ none) e), rfl⟩

/-! ### A SEND that finds the bus idle at once -/

/-- An idle check made at once counts itself and records two high lines: of the bus host it keeps nothing (R80). -/
theorem State.frameStart_zero_of_idle {s : State} (hi : s.idleAt s.now = true) : s.frameStart 0 =
    { s with
      tries := 1
      trace := ⟨s.now, .sampleDat true⟩ :: ⟨s.now, .sampleClk true⟩ :: s.trace } := by
  obtain ⟨hclk, hdat⟩ := Bool.and_eq_true_iff.mp hi
  calc s.frameStart 0
    _ = { s with
          tries := 1
          trace := ⟨s.now, .sampleDat (s.datLineAt s.now)⟩ :: ⟨s.now, .sampleClk (s.clkLineAt s.now)⟩ :: s.trace } := rfl
    _ = _ := by rw [hclk, hdat]

/-- A SEND that finds the bus idle at once sends its frame from there (R84). -/
theorem exec_send_idle {s : State} (hs : s.seq = .idle) (hN : 0 < s.cfg.nAttempts) (hi : s.idleAt s.now = true)
    (b : Byte) :
    ∃ x, FrameDone (s.frameStart 0) b x ∧ exec (.send b) s = .next (x.finish (some (.send .sent))) := by
  obtain ⟨x, hx, hreq⟩ := send_sent_spec hs b hN (fun k hk => absurd hk k.not_lt_zero) hi
  exact ⟨x, hx, (exec_eq_request _ _).trans hreq⟩

/-- Frames from states that differ only in the bus host's drives leave states that differ only in those drives and in the
data line's last level (R41, R87). -/
theorem FrameDone.eq_of_host {s t u : State} {b : Byte} {h : List HostDrive} (ht : FrameDone s b t)
    (hu : FrameDone { s with host := h } b u) : u = { t with host := h, datPrev := u.datPrev } := by
  apply State.ext
  case datPrev => rfl
  case host => exact hu.host
  all_goals simp only [hu.cfg, hu.clkDrv, hu.datDrv, hu.ie, hu.busy, hu.hostTalking, hu.lastSent, hu.shreg, hu.par, hu.bitn,
    hu.tries, hu.ok, hu.seq, hu.req, hu.result, hu.events, hu.refused, hu.now, hu.consumer, hu.trace, hu.draws, ht.cfg,
    ht.clkDrv, ht.datDrv, ht.ie, ht.busy, ht.hostTalking, ht.lastSent, ht.shreg, ht.par, ht.bitn, ht.tries, ht.ok, ht.seq,
    ht.req, ht.result, ht.events, ht.refused, ht.now, ht.consumer, ht.trace, ht.draws]

/-- Settles O33: the idle checks record the same levels in both runs, so the frames start from states that differ only in
the bus host's drives. -/
theorem sendFrameIgnoresBusHost : Obligations.SendFrameIgnoresBusHost := by
  unfold Obligations.SendFrameIgnoresBusHost
  intro b s h hs hN hi hi'
  obtain ⟨x, hx, hexec⟩ := exec_send_idle hs hN hi b
  obtain ⟨y, hy, hexec'⟩ := exec_send_idle (s := { s with host := h }) hs hN hi' b
  rw [State.frameStart_zero_of_idle hi] at hx
  rw [State.frameStart_zero_of_idle hi'] at hy
  refine ⟨_, _, hexec, hexec', ?_⟩
  exact congrArg (State.finish (some (.send .sent))) (hx.eq_of_host hy)

end Sys2Proof.Machine

/-! PROOFS. The family of the encoding (30_encoding.md): decoding undoes encoding and the other way round, which words are
refused and what a refusal changes, how many words are accepted, and the layout of a frame. -/

namespace Sys2Proof.Machine

/-! ### The encoding of an instruction decodes to it -/

/-- Two fields side by side, as a number. -/
theorem toNat_append_eq_add {m n : Nat} (x : BitVec m) (y : BitVec n) :
    (x ++ y).toNat = x.toNat * 2 ^ n + y.toNat := by
  rw [BitVec.toNat_append, ← Nat.shiftLeft_add_eq_or_of_lt y.isLt, Nat.shiftLeft_eq]

@[simp] theorem requestFields_encodeRequest (r : Request) : requestFields (encodeRequest r) = r := by
  simp only [requestFields, encodeRequest, BitVec.extractLsb'_append_eq_left, BitVec.extractLsb'_append_eq_right]

/-- R59's map gives every operation, and every operand, back. -/
theorem decodeRequest_request (i : Instr) : decodeRequest i.request = .instr i := by
  cases i with
  | setbit b => cases b <;> rfl
  | setie e => cases e <;> rfl
  | _ => rfl

@[simp] theorem decode_encode (i : Instr) : decode (encode i) = .instr i := by
  rw [decode, encode, requestFields_encodeRequest, decodeRequest_request]

theorem encode_injective : Function.Injective encode := fun i j h =>
  Decoded.instr.inj (by rw [← decode_encode i, h, decode_encode])

/-- Settles O3: a word that decodes is put together again from its fields, and an encoding is taken apart into the fields it
was made of. -/
theorem decodeIsInverseOfEncode : Obligations.DecodeIsInverseOfEncode := by
  unfold Obligations.DecodeIsInverseOfEncode
  refine fun w i => ⟨fun h => (encode_of_decode h).symm, ?_⟩
  rintro rfl
  exact decode_encode i

/-! ### The words, as numbers -/

/-- R62: a request word is the number `op * 256 + arg`. -/
theorem encode_toNat (i : Instr) : (encode i).toNat = i.request.op.toNat * 256 + i.request.arg.toNat :=
  toNat_append_eq_add _ _

@[simp] theorem zextBit_toNat (b : Bool) : (zextBit b).toNat = b.toNat := by cases b <;> rfl

/-- Settles O2: each operation's fields, put together. -/
theorem encodingIsOpThenArg : Obligations.EncodingIsOpThenArg := by
  unfold Obligations.EncodingIsOpThenArg
  simp [encode_toNat, Instr.request]

/-- Settles O1: the words of the eight operations are encodings, and the refused ones are run through the decoder. -/
theorem writtenOutWordsDecode : Obligations.WrittenOutWordsDecode := by
  unfold Obligations.WrittenOutWordsDecode
  exact ⟨decode_encode .pulse, decode_encode (.setbit false), decode_encode (.setbit true), decode_encode .readbit,
    decode_encode .readlines, decode_encode .reldat, decode_encode (.send 0xFA#8), decode_encode .recv,
    decode_encode (.setie false), decode_encode (.setie true), rfl, rfl, rfl, rfl, rfl, rfl⟩

/-! ### Refused words -/

theorem requestFields_op_toNat (w : ReqWord) : (requestFields w).op.toNat = w.toNat / 256 := by
  have := w.isLt
  simp only [requestFields, BitVec.extractLsb'_toNat, Nat.shiftRight_eq_div_pow]
  omega

theorem requestFields_arg_toNat (w : ReqWord) : (requestFields w).arg.toNat = w.toNat % 256 := by
  simp only [requestFields, BitVec.extractLsb'_toNat, Nat.shiftRight_zero, Nat.reducePow]

/-- No operation's word meets a condition of R60. -/
theorem not_refusedWord_encode (i : Instr) : ¬ RefusedWord (encode i) := by
  have hw := encode_toNat i
  unfold RefusedWord
  cases i with
  | setbit b => cases b <;> decide
  | setie e => cases e <;> decide
  | send b =>
    have := b.isLt
    simp only [Instr.request, BitVec.reduceToNat] at hw
    omega
  | _ => decide

/-- A word that meets none of R60's conditions decodes: its `op` is one of R59's rows, and its `arg` is one of the row's. -/
theorem decode_of_not_refusedWord {w : ReqWord} (hw : ¬ RefusedWord w) : ∃ i, decode w = .instr i := by
  have hop := requestFields_op_toNat w
  have harg := requestFields_arg_toNat w
  unfold RefusedWord at hw
  unfold decode decodeRequest
  split
  case h_6 => exact ⟨_, rfl⟩
  case h_9 =>
    simp only [imp_false] at *
    omega
  all_goals exact ⟨_, if_pos (by omega)⟩

theorem refusedWord_iff {w : ReqWord} : RefusedWord w ↔ ∀ i, decode w ≠ .instr i := by
  refine ⟨fun hw i hi => ?_, fun hd => ?_⟩
  · rw [← encode_of_decode hi] at hw
    exact not_refusedWord_encode i hw
  · by_contra hw
    obtain ⟨i, hi⟩ := decode_of_not_refusedWord hw
    exact hd i hi

/-! ### Refusals -/

/-- A word that decodes to no instruction is refused, whatever the machine is doing (R60). -/
theorem step_refuses_undecoded {s : State} {w : ReqWord} (hreq : s.req = some w) (hd : ∀ i, decode w ≠ .instr i) :
    step s = .next (s.takeRequest.refuse w) := by
  cases h : decode w with
  | instr i => exact absurd h (hd i)
  | reservedOp _ => simp only [step, serveRequest, hreq, h]
  | strayArg _ _ => simp only [step, serveRequest, hreq, h]

@[simp] theorem actConsumer_refused (a : ConsumerAct) (s : State) : (actConsumer a s).refused = s.refused := by
  cases a with
  | delay n => exact s.elapse_refused n
  | _ => rfl

@[simp] theorem State.consumerStep_refused (s : State) : s.consumerStep.refused = s.refused := by
  cases h : s.consumer with
  | nil => rw [State.consumerStep_nil h, State.tick_refused]
  | cons a rest => rw [State.consumerStep_cons h, actConsumer_refused]

/-- A step adds to the record of refusals and takes nothing from it. -/
theorem step_refused_grows {s t : State} (h : step s = .next t) : ∃ new, t.refused = new ++ s.refused :=
  step_induct (P := fun u => ∃ new, u.refused = new ++ s.refused)
    (fun u hu => by rwa [u.seqStep_frame.refused])
    (fun _ _ _ hu => hu)
    (fun _ w ⟨new, hnew⟩ => ⟨w :: new, congrArg (w :: ·) hnew⟩)
    (fun _ hu => hu)
    (fun u _ _ hu => by rwa [u.consumerStep_refused])
    ⟨[], rfl⟩ h

/-- Settles O6: R60's words are those that do not decode, such a word is only recorded, and no part of a step shortens the
record. -/
theorem refusedRequestChangesNothing : Obligations.RefusedRequestChangesNothing := by
  unfold Obligations.RefusedRequestChangesNothing
  exact ⟨fun _ _ hreq hw => step_refuses_undecoded hreq (refusedWord_iff.mp hw), fun _ => decode_of_not_refusedWord,
    fun _ _ => step_refused_grows⟩

/-! ### The number of accepted words -/

/-- The operations without a byte operand. -/
def plainInstrs : List Instr :=
  [.pulse, .setbit false, .setbit true, .readbit, .readlines, .reldat, .recv, .setie false, .setie true]

/-- The sends, one for each byte. -/
def sendInstrs : List Instr := (List.finRange 256).map fun n => .send (BitVec.ofFin n)

/-- Every operation with every operand. -/
def allInstrs : List Instr := plainInstrs ++ sendInstrs

theorem send_mem_sendInstrs (b : Byte) : .send b ∈ sendInstrs := List.mem_map.mpr ⟨b.toFin, List.mem_finRange _, rfl⟩

theorem mem_allInstrs (i : Instr) : i ∈ allInstrs := by
  cases i with
  | send b => exact List.mem_append_right _ (send_mem_sendInstrs b)
  | setbit b => cases b <;> exact List.mem_append_left _ (by decide)
  | setie e => cases e <;> exact List.mem_append_left _ (by decide)
  | _ => exact List.mem_append_left _ (by decide)

theorem nodup_allInstrs : allInstrs.Nodup := by
  have hsend : sendInstrs.Nodup :=
    (List.nodup_finRange 256).map fun _ _ h => congrArg BitVec.toFin (Instr.send.inj h)
  refine List.nodup_append.mpr ⟨by decide, hsend, ?_⟩
  rintro i hi _ hj rfl
  obtain ⟨n, -, rfl⟩ := List.mem_map.mp hj
  simp [plainInstrs] at hi

theorem length_allInstrs : allInstrs.length = 265 := by simp [allInstrs, plainInstrs, sendInstrs]

/-- A word is accepted exactly if it is an instruction's word. -/
theorem isSome_toInstr_decode_iff {w : ReqWord} : (decode w).toInstr.isSome ↔ ∃ i, encode i = w := by
  constructor
  · intro h
    cases hd : decode w with
    | instr i => exact ⟨i, encode_of_decode hd⟩
    | _ => simp [hd, Decoded.toInstr] at h
  · rintro ⟨i, rfl⟩
    simp [Decoded.toInstr]

/-- The accepted words, in order, are the words of all instructions, in another order. -/
theorem acceptedWords_perm :
    ((List.range 4096).filter fun n => (decode (BitVec.ofNat 12 n)).toInstr.isSome).Perm
      (allInstrs.map fun i => (encode i).toNat) := by
  have hinj : Function.Injective fun i => (encode i).toNat := fun i j h => encode_injective (BitVec.eq_of_toNat_eq h)
  refine (List.perm_ext_iff_of_nodup (List.nodup_range.filter _) (nodup_allInstrs.map hinj)).mpr fun n => ?_
  rw [List.mem_filter, List.mem_range, isSome_toInstr_decode_iff, List.mem_map]
  constructor
  · rintro ⟨hn, i, hi⟩
    exact ⟨i, mem_allInstrs i, by simp [hi, Nat.mod_eq_of_lt hn]⟩
  · rintro ⟨i, -, rfl⟩
    exact ⟨(encode i).isLt, i, by simp⟩

/-- Settles O4: encoding matches the accepted words with the instructions, of which there are 265. -/
theorem acceptedWordCount : Obligations.AcceptedWordCount := by
  unfold Obligations.AcceptedWordCount
  rw [acceptedWords_perm.length_eq, List.length_map, length_allInstrs]

/-! ### The frame -/

/-- A parity bit that takes in a data bit changes by as much as the count of ones does, modulo 2 (R23). -/
theorem toNat_xor_add_mod_two (p d : Bool) : ((if d = true then 1 else 0) + (p ^^ d).toNat) % 2 = p.toNat := by
  cases p <;> cases d <;> rfl

/-- With the seed 1 the first `n` data bits and their running parity hold an odd number of ones (R54). -/
theorem parityAfter_odd (b : Byte) (n : Nat) :
    ((List.range n).countP b.getLsbD + (parityAfter true b n).toNat) % 2 = 1 := by
  induction n with
  | zero => rfl
  | succ n ih =>
    have hbit := toNat_xor_add_mod_two (parityAfter true b n) (b.getLsbD n)
    rw [List.range_succ, List.countP_append, List.countP_singleton, parityAfter]
    omega

/-- The data and parity slots of a frame with the seed 1 hold an odd number of ones (R54). -/
theorem frameSlot_odd (b : Byte) : ((List.range 9).countP fun i => frameSlot true b (i + 1)) % 2 = 1 := by
  have hdata : ((List.range 8).countP fun i => frameSlot true b (i + 1)) = (List.range 8).countP b.getLsbD :=
    List.countP_congr fun i hi => by rw [frameSlot_data true b (List.mem_range.mp hi)]
  have hpar : ([8].countP fun i => frameSlot true b (i + 1)) = (frameParity true b).toNat := by
    rw [List.countP_singleton, frameSlot_parity]
    cases frameParity true b <;> rfl
  rw [List.range_succ, List.countP_append, hdata, hpar]
  exact parityAfter_odd b 8

/-- R53: the frame word as a number. -/
theorem frameWord_toNat (seed : Bool) (b : Byte) :
    (frameWord seed b).toNat = 0x400 + (frameParity seed b).toNat * 512 + b.toNat * 2 := by
  simp only [frameWord, toNat_append_eq_add, BitVec.toNat_ofBool, Bool.toNat_true, Bool.toNat_false]
  omega

/-- Settles O28: the slots one by one, the word's number, and the odd count. -/
theorem frameWordLayout : Obligations.FrameWordLayout := by
  unfold Obligations.FrameWordLayout
  exact fun b => ⟨frameSlot_start true b, fun i hi => frameSlot_data true b hi, frameSlot_parity true b,
    frameSlot_stop true b, frameWord_toNat true b, frameSlot_odd b⟩

end Sys2Proof.Machine

/-! PROOFS. The family of the line transport (40_line_transport.md): what PULSE, SETBIT, READBIT, READLINES and RELDAT do,
what all five leave alone, and that a pulse does not see the bus host's clock. -/

namespace Sys2Proof.Machine

/-! ### What the passing of time does not read -/

theorem State.elapse_withTrace (s : State) (l : List Stamped) (n : Nat) :
    ({ s with trace := l } : State).elapse n = { s.elapse n with trace := l } := by
  induction n with
  | zero => rfl
  | succ n ih => rw [State.elapse_succ, State.elapse_succ, ih]; rfl

/-- The bus host's clock drive is not read (R76): of the schedule, only the drives of the data line count. -/
theorem State.elapse_withHost {s : State} {h : List HostDrive}
    (hdat : ∀ u, ({ s with host := h } : State).hostDatDrv u = s.hostDatDrv u) (n : Nat) :
    ({ s with host := h } : State).elapse n = { s.elapse n with host := h } := by
  induction n with
  | zero => rfl
  | succ n ih =>
    have hline : ({ s.elapse n with host := h } : State).datLine = (s.elapse n).datLine := by
      unfold State.datLine
      rw [State.hostDatDrv_congr (s.elapse_host n), ← hdat]
      rfl
    rw [State.elapse_succ, State.elapse_succ, ih]
    simp only [State.tick, State.interrupt, hline]

/-! ### A pulse -/

/-- A pulse by its three phases (R70), each as long as its parameter, or at least that long (R133). -/
theorem pulse_phases (s : State) : ∃ w1 w2 w3 : Nat,
    s.cfg.tSettle1 ≤ w1 ∧ s.cfg.tHold ≤ w2 ∧ s.cfg.tSettle2 ≤ w3
      ∧ (s.cfg.timingMode = .exact → w1 = s.cfg.tSettle1 ∧ w2 = s.cfg.tHold ∧ w3 = s.cfg.tSettle2)
      ∧ applyAll pulseActs s = { s.elapse (w1 + w2 + w3) with
          clkDrv := false
          trace := ⟨s.now + w1 + w2, .clkDrv false⟩ :: ⟨s.now + w1, .clkDrv true⟩ :: s.trace
          draws := s.draws + 3 } :=
  ⟨_, _, _, le_waitLength _ s.draws _, le_waitLength _ (s.draws + 1) _, le_waitLength _ (s.draws + 2) _,
    fun hex => ⟨waitLength_exact hex .., waitLength_exact hex .., waitLength_exact hex ..⟩, pulse_eq s⟩

/-- A pulse does not see what the bus host does to the clock (R76). -/
theorem pulse_withHost {s : State} {h : List HostDrive}
    (hdat : ∀ u, ({ s with host := h } : State).hostDatDrv u = s.hostDatDrv u) :
    applyAll pulseActs { s with host := h } = { applyAll pulseActs s with host := h } := by
  rw [pulse_eq, pulse_eq, State.elapse_withHost hdat]

/-! ### The five operations, run to their end -/

theorem State.finish_of_idle {s : State} (hs : s.seq = .idle) (r : Option Result) : s.finish r = { s with result := r } := by
  rw [State.finish, ← hs]

section
variable {s : State} (hs : s.seq = .idle)
include hs

theorem exec_pulse : exec .pulse s = .next { applyAll pulseActs s with result := none } := by
  rw [exec_eq_request, request_pulse hs, State.finish_of_idle ((pulse_seq s).trans hs)]

theorem exec_setbit (b : Bool) :
    exec (.setbit b) s = .next { applyAll pulseActs (s.driveDat !b) with result := none } := by
  rw [exec_eq_request, request_setbit hs, setBit_lit, State.finish_of_idle ((pulse_seq (s.driveDat !b)).trans hs)]

theorem exec_readbit : exec .readbit s = .next { s.sampleDat with result := some (.bit s.datLine) } := by
  rw [exec_eq_request, request_readbit hs, State.finish_of_idle (s := s.sampleDat) hs]

theorem exec_readlines : exec .readlines s = .next { s.sampleClk.sampleDat with
    result := some (.lines (BitVec.ofBool s.clkLine ++ BitVec.ofBool s.datLine)) } := by
  rw [exec_eq_request, request_readlines hs, State.finish_of_idle (s := s.sampleClk.sampleDat) hs]

theorem exec_reldat : exec .reldat s = .next { s.driveDat false with result := none } := by
  rw [exec_eq_request, request_reldat hs, State.finish_of_idle (s := s.driveDat false) hs]

end

/-- Settles O15: the three phases of a pulse, and an empty result. -/
theorem pulseClocksThreePhases : Obligations.PulseClocksThreePhases := by
  unfold Obligations.PulseClocksThreePhases
  intro s hs
  obtain ⟨w1, w2, w3, h1, h2, h3, hex, hp⟩ := pulse_phases s
  exact ⟨w1, w2, w3, h1, h2, h3, hex, by rw [exec_pulse hs, hp]⟩

/-- Settles O16: the pulse starts from the state whose data drive is written, and the record of that drive does not matter
to the time that passes. -/
theorem setbitDrivesThenClocks : Obligations.SetbitDrivesThenClocks := by
  unfold Obligations.SetbitDrivesThenClocks
  intro b s hs
  obtain ⟨w1, w2, w3, h1, h2, h3, hex, hp⟩ := pulse_phases (s.driveDat !b)
  have htime : (s.driveDat !b).elapse (w1 + w2 + w3) =
      { ({ s with datDrv := !b } : State).elapse (w1 + w2 + w3) with trace := ⟨s.now, .datDrv !b⟩ :: s.trace } :=
    State.elapse_withTrace { s with datDrv := !b } _ _
  exact ⟨w1, w2, w3, h1, h2, h3, hex, by rw [exec_setbit hs, hp, htime]; rfl⟩

/-! ### What the five operations leave alone -/

/-- What a line-transport operation that goes from `s` to `t` leaves alone (R69). The flag changes only as the time that
passes over the operation's data drive changes it. -/
structure TransportFrame (s t : State) : Prop where
  ie : t.ie = s.ie
  busy : t.busy = s.busy
  lastSent : t.lastSent = s.lastSent
  hostTalking : ∃ n, t.now = s.now + n ∧ t.hostTalking = (({ s with datDrv := t.datDrv } : State).elapse n).hostTalking
  seq : t.seq = s.seq
  shreg : t.shreg = s.shreg
  par : t.par = s.par
  bitn : t.bitn = s.bitn
  tries : t.tries = s.tries
  ok : t.ok = s.ok
  events : t.events = s.events

/-- A pulse after a write of the data drive, or after none. -/
theorem transportFrame_pulse (s : State) (d : Bool) (l : List Stamped) :
    TransportFrame s (applyAll pulseActs { s with datDrv := d, trace := l }) where
  ie := pulse_ie _
  busy := pulse_busy _
  lastSent := pulse_lastSent _
  hostTalking := ⟨_, pulse_now _, by
    rw [pulse_hostTalking, pulse_datDrv, State.elapse_withTrace { s with datDrv := d }]⟩
  seq := pulse_seq _
  shreg := pulse_shreg _
  par := pulse_par _
  bitn := pulse_bitn _
  tries := pulse_tries _
  ok := pulse_ok _
  events := pulse_events _

/-- An operation that takes no time writes the data drive, the result and the record at most. -/
theorem transportFrame_instant (s : State) (d : Bool) (r : Option Result) (l : List Stamped) :
    TransportFrame s { s with datDrv := d, result := r, trace := l } :=
  ⟨rfl, rfl, rfl, ⟨0, rfl, rfl⟩, rfl, rfl, rfl, rfl, rfl, rfl, rfl⟩

theorem TransportFrame.withResult {s t : State} (h : TransportFrame s t) (r : Option Result) :
    TransportFrame s { t with result := r } :=
  ⟨h.ie, h.busy, h.lastSent, h.hostTalking, h.seq, h.shreg, h.par, h.bitn, h.tries, h.ok, h.events⟩

theorem exec_transportFrame {i : Instr} {s : State} (hs : s.seq = .idle)
    (hi : i = .pulse ∨ (∃ b, i = .setbit b) ∨ i = .readbit ∨ i = .readlines ∨ i = .reldat) :
    ∃ t, exec i s = .next t ∧ TransportFrame s t := by
  rcases hi with rfl | ⟨b, rfl⟩ | rfl | rfl | rfl
  · exact ⟨_, exec_pulse hs, (transportFrame_pulse s s.datDrv s.trace).withResult none⟩
  · exact ⟨_, exec_setbit hs b, (transportFrame_pulse s (!b) _).withResult none⟩
  · exact ⟨_, exec_readbit hs, transportFrame_instant s s.datDrv _ _⟩
  · exact ⟨_, exec_readlines hs, transportFrame_instant s s.datDrv _ _⟩
  · exact ⟨_, exec_reldat hs, transportFrame_instant s false _ _⟩

/-- Settles O20: the registers by the transport's own frame, the inputs and the port by the frame of every instruction. With
the interrupt masked the passing of time leaves the flag alone. -/
theorem lineTransportFrame : Obligations.LineTransportFrame := by
  unfold Obligations.LineTransportFrame
  intro i s hs hi
  obtain ⟨t, he, hf⟩ := exec_transportFrame hs hi
  obtain ⟨hm, href⟩ := exec_frame he
  obtain ⟨n, hnow, hflag⟩ := hf.hostTalking
  rw [show n = t.now - s.now by omega] at hflag
  exact ⟨t, he, hf.seq.trans hs, hf.ie, hf.busy, hf.lastSent, hflag,
    fun hie => hflag.trans (State.elapse_hostTalking_masked { s with datDrv := t.datDrv } _ hie), hf.shreg, hf.par, hf.bitn,
    hf.tries, hf.ok, hf.events, href hs, hm.req, hm.cfg, hm.host, hm.consumer⟩

/-- Settles O21: both operations make one pulse, SETBIT after a drive that reads nothing of the bus host. -/
theorem pulseDoesNotWatchClock : Obligations.PulseDoesNotWatchClock := by
  unfold Obligations.PulseDoesNotWatchClock
  rintro i s h hs (rfl | ⟨b, rfl⟩) hdat
  · exact ⟨_, exec_pulse hs, by rw [exec_pulse (s := { s with host := h }) hs, pulse_withHost hdat]⟩
  · have hpulse : applyAll pulseActs (({ s with host := h } : State).driveDat !b) =
        { applyAll pulseActs (s.driveDat !b) with host := h } := pulse_withHost (s := s.driveDat !b) hdat
    exact ⟨_, exec_setbit hs b, by rw [exec_setbit (s := { s with host := h }) hs, hpulse]⟩

/-! ### Reading the lines and releasing the data line -/

/-- Settles O17: the level READBIT samples is the data line's, both ends' drives ORed and inverted (R16). -/
theorem readbitReturnsDataLevel : Obligations.ReadbitReturnsDataLevel := by
  unfold Obligations.ReadbitReturnsDataLevel
  exact fun s hs => exec_readbit hs

theorem getLsbD_ofBool_append_ofBool (a b : Bool) :
    (BitVec.ofBool a ++ BitVec.ofBool b).getLsbD 1 = a ∧ (BitVec.ofBool a ++ BitVec.ofBool b).getLsbD 0 = b := by
  rw [BitVec.getLsbD_append, BitVec.getLsbD_append]
  simp

/-- Settles O18: the clock's level is put in bit 1 and the data's in bit 0, as they are recorded. -/
theorem readlinesReturnsBothLevels : Obligations.ReadlinesReturnsBothLevels := by
  unfold Obligations.ReadlinesReturnsBothLevels
  intro s hs
  obtain ⟨hclk, hdat⟩ := getLsbD_ofBool_append_ofBool s.clkLine s.datLine
  exact ⟨_, hclk, hdat, by rw [exec_readlines hs, hclk, hdat]; rfl⟩

/-- Settles O19: RELDAT's word, its one drive, and the line's level with the drive released (R16). -/
theorem reldatReleasesData : Obligations.ReldatReleasesData := by
  unfold Obligations.ReldatReleasesData
  exact ⟨rfl, fun s hs => ⟨_, exec_reldat hs, rfl, rfl⟩⟩

end Sys2Proof.Machine

/-! PROOFS. The family of the frame codec (41_frame_codec.md): the whole next state of SEND, RECV and SETIE, the waveforms
of their records, and that SEND and RECV end. -/

namespace Sys2Proof.Machine

/-! ### SETIE -/

theorem exec_setie {s : State} (hs : s.seq = .idle) (e : Bool) :
    exec (.setie e) s = .next { s.writeIe e with result := none } := by
  rw [exec_eq_request, request_setie hs, State.finish_of_idle (s := s.writeIe e) hs]

/-- Settles O24: SETIE writes the enable, which is recorded, and leaves the result port empty. -/
theorem setieWritesEnable : Obligations.SetieWritesEnable := by
  unfold Obligations.SetieWritesEnable
  exact fun e s hs => exec_setie hs e

/-- A data line that stays low is no edge, but a low level (R104). -/
theorem triggered_low_low (tr : IrqTrigger) : triggered tr false false = decide (tr = .levelLow) := by
  cases tr <;> rfl

/-- Settles O14: the enable does not change what the trigger sees, and the next microsecond's evaluation finds it at 1. -/
theorem setieDoesNotLookBack : Obligations.SetieDoesNotLookBack := by
  unfold Obligations.SetieDoesNotLookBack
  intro s hs hreq hc hprev hline
  refine ⟨_, _, exec_setie hs true, step_consumer hreq hs, ?_⟩
  rw [State.consumerStep_nil (s := { s.writeIe true with result := none }) hc, State.tick_hostTalking]
  have htrig : triggered s.cfg.irqTrigger s.datPrev s.datLine = decide (s.cfg.irqTrigger = .levelLow) := by
    rw [hprev, hline, triggered_low_low]
  exact congrArg (s.hostTalking || ·) htrig

/-! ### The idle checks of a SEND -/

/-- A check comes no earlier than the parameters say (R81, R133). -/
theorem add_mul_le_checkTime (c : Config) (d t k : Nat) : t + k * c.tRetry ≤ checkTime c d t k := by
  induction k with
  | zero => simp [checkTime]
  | succ k ih =>
    have hw := le_waitLength c (d + k) c.tRetry
    rw [checkTime, Nat.succ_mul]
    omega

/-- Settles O30: after the last failed check SEND ends in the state those checks and their waits leave. -/
theorem sendDropsOnBusyBus : Obligations.SendDropsOnBusyBus := by
  unfold Obligations.SendDropsOnBusyBus
  intro b s hs hN hf
  have hle := add_mul_le_checkTime s.cfg s.draws s.now s.cfg.nAttempts
  refine ⟨checkTime s.cfg s.draws s.now s.cfg.nAttempts - s.now, by omega, fun hex => ?_, ?_⟩
  · rw [checkTime_exact hex, Nat.add_sub_cancel_left]
  · have hidle : (s.failChecks s.cfg.nAttempts).seq = .idle := by rw [failChecks_eq, State.elapse_seq, hs]
    rw [exec_eq_request, request_send_dropped hs hN b hf, State.finish_of_idle hidle, failChecks_eq]

/-- The idle check that succeeds records its samples like one that fails (R80). -/
theorem State.frameStart_trace (s : State) (j : Nat) :
    (s.frameStart j).trace = (checksRecord s (j + 1)).reverse ++ s.trace := by
  have hsame : (s.frameStart j).trace = (s.failChecks (j + 1)).trace := by
    simp [State.frameStart, State.failChecks, State.wait]
  rw [hsame, failChecks_eq]

/-- Up to the start of its frame a SEND counts its checks, records their samples and lets the waits pass (R81). -/
theorem State.frameStart_eq (s : State) (j : Nat) : s.frameStart j =
    { s with
      datPrev := (s.elapse (checkTime s.cfg s.draws s.now j - s.now)).datPrev
      hostTalking := (s.elapse (checkTime s.cfg s.draws s.now j - s.now)).hostTalking
      tries := j + 1
      now := checkTime s.cfg s.draws s.now j
      trace := (checksRecord s (j + 1)).reverse ++ s.trace
      draws := s.draws + j } := by
  have hle := le_checkTime s.cfg s.draws s.now j
  have hstart : s.frameStart j = { s.failChecks j with tries := j + 1, trace := (s.frameStart j).trace } := rfl
  rw [hstart, State.frameStart_trace, failChecks_eq]
  apply State.ext
  case now => exact (State.elapse_now ..).trans (Nat.add_sub_of_le hle)
  all_goals simp

/-! ### A SEND that sends its frame -/

/-- What a frame leaves, as one state (R84 to R86). -/
theorem FrameDone.eq_record {s t : State} {b : Byte} (h : FrameDone s b t) : t =
    { s with
      clkDrv := false
      datDrv := false
      datPrev := t.datPrev
      ie := true
      busy := false
      lastSent := b
      shreg := b
      par := frameParity s.cfg.paritySeed b
      bitn := 8
      now := pulseStart s.cfg s.draws s.now 11
      trace := (frameRecord s.cfg s.draws s.now b).reverse ++ s.trace
      draws := s.draws + 33 } :=
  State.ext h.cfg h.clkDrv h.datDrv rfl h.ie h.busy h.hostTalking h.lastSent h.shreg h.par h.bitn h.tries h.ok h.seq h.req
    h.result h.events h.refused h.now h.host h.consumer h.trace h.draws

theorem exec_send_sent {s : State} (hs : s.seq = .idle) (b : Byte) {j : Nat} (hj : j < s.cfg.nAttempts)
    (hf : ∀ k < j, s.idleAt (checkTime s.cfg s.draws s.now k) = false)
    (hi : s.idleAt (checkTime s.cfg s.draws s.now j) = true) :
    ∃ x, FrameDone (s.frameStart j) b x ∧ exec (.send b) s = .next { x with result := some (.send .sent) } := by
  obtain ⟨x, hx, hreq⟩ := send_sent_spec hs b hj hf hi
  have hidle : x.seq = .idle := by rw [hx.seq, State.frameStart_eq, hs]
  exact ⟨x, hx, by rw [exec_eq_request, hreq, State.finish_of_idle hidle]⟩

/-- Settles O29: the frame starts from the state the checks leave, and it ends in the state a frame leaves. -/
theorem sendCompletesFrame : Obligations.SendCompletesFrame := by
  unfold Obligations.SendCompletesFrame
  intro b s j hs hj hf hi
  obtain ⟨x, hx, hexec⟩ := exec_send_sent hs b hj hf hi
  refine ⟨_, _, rfl, hexec, ?_, fun hpos => ?_⟩
  · have heq := hx.eq_record
    generalize x.datPrev = p at heq
    rw [heq, State.frameStart_eq, List.append_assoc]
  · have hprev := hx.datPrev (Nat.lt_of_lt_of_le (by rwa [State.frameStart_eq]) (le_pulseLength _ _))
    rwa [State.hostDatDrv_congr (s := s) (by rw [State.frameStart_eq])] at hprev

/-! ### The waveform of a SEND -/

theorem drives_append (l m : List Stamped) : drives (l ++ m) = drives l ++ drives m := List.filter_append ..

theorem drives_flatMap {α : Type} (l : List α) (f : α → List Stamped) :
    drives (l.flatMap f) = l.flatMap fun a => drives (f a) := by
  simp only [drives, List.filter_flatMap]

/-- The idle checks only sample (R80). -/
theorem drives_checksRecord (s : State) (n : Nat) : drives (checksRecord s n) = [] := by
  rw [checksRecord, drives_flatMap]
  exact List.flatMap_eq_nil_iff.mpr fun _ _ => rfl

/-- A frame drives its eleven slots and nothing else (R84). -/
theorem drives_frameRecord (c : Config) (d t : Nat) (b : Byte) : drives (frameRecord c d t b) =
    (List.range 11).flatMap fun i => setBitRecord c (d + 3 * i) (pulseStart c d t i) (frameSlot c.paritySeed b i) := by
  rw [frameRecord, drives_append, drives_append, drives_flatMap]
  exact List.append_nil _

/-- What a SEND has recorded by the end of the frame that follows its check `j` (R81, R84). -/
def sendRecord (s : State) (j : Nat) (b : Byte) : List Stamped :=
  checksRecord s (j + 1) ++ frameRecord s.cfg (s.draws + j) (checkTime s.cfg s.draws s.now j) b

theorem drives_sendRecord (s : State) (j : Nat) (b : Byte) : drives (sendRecord s j b) =
    (List.range 11).flatMap fun i => setBitRecord s.cfg (s.draws + j + 3 * i)
      (pulseStart s.cfg (s.draws + j) (checkTime s.cfg s.draws s.now j) i) (frameSlot s.cfg.paritySeed b i) := by
  rw [sendRecord, drives_append, drives_checksRecord, drives_frameRecord, List.nil_append]

theorem FrameDone.trace_eq_sendRecord {s x : State} {j : Nat} {b : Byte} (h : FrameDone (s.frameStart j) b x) :
    x.trace = (sendRecord s j b).reverse ++ s.trace := by
  rw [h.trace, State.frameStart_eq, sendRecord, List.reverse_append, List.append_assoc]

theorem FrameDone.now_eq_pulseStart {s x : State} {j : Nat} {b : Byte} (h : FrameDone (s.frameStart j) b x) :
    x.now = pulseStart s.cfg (s.draws + j) (checkTime s.cfg s.draws s.now j) 11 := by
  rw [h.now, State.frameStart_eq]

/-- The levels on the data line are to be read from the drives alone. -/
theorem dataDriven_drives (r : List Stamped) : dataDriven (drives r) = dataDriven r := by
  induction r with
  | nil => rfl
  | cons e r ih =>
    obtain ⟨t, a⟩ := e
    cases a with
    | datDrv d => exact congrArg ((!d) :: ·) ih
    | _ => exact ih

/-- The clock assertions are to be counted in the drives alone. -/
theorem clockCount_drives (r : List Stamped) : clockCount (drives r) = clockCount r := by
  refine List.countP_filter.trans (List.countP_congr fun e _ => ?_)
  obtain ⟨t, a⟩ := e
  cases a <;> simp [Action.isDrive]

theorem dataDriven_setBitRecord (c : Config) (d t : Nat) (v : Bool) : dataDriven (setBitRecord c d t v) = [v] :=
  congrArg (fun w => [w]) (Bool.not_not v)

theorem clockCount_setBitRecord (c : Config) (d t : Nat) (v : Bool) : clockCount (setBitRecord c d t v) = 1 := rfl

/-- SETBITs put their operands on the data line, in their order (R71). -/
theorem dataDriven_setBits (c : Config) (d t : Nat → Nat) (v : Nat → Bool) (l : List Nat) :
    dataDriven (l.flatMap fun i => setBitRecord c (d i) (t i) (v i)) = l.map v := by
  induction l with
  | nil => rfl
  | cons i l ih =>
    have happ : ∀ r r', dataDriven (r ++ r') = dataDriven r ++ dataDriven r' := fun _ _ => List.filterMap_append
    rw [List.flatMap_cons, happ, dataDriven_setBitRecord, ih, List.map_cons, List.singleton_append]

/-- Each SETBIT asserts the clock once (R71). -/
theorem clockCount_setBits (c : Config) (d t : Nat → Nat) (v : Nat → Bool) (l : List Nat) :
    clockCount (l.flatMap fun i => setBitRecord c (d i) (t i) (v i)) = l.length := by
  induction l with
  | nil => rfl
  | cons i l ih =>
    have happ : ∀ r r', clockCount (r ++ r') = clockCount r + clockCount r' := fun _ _ => List.countP_append
    rw [List.flatMap_cons, happ, clockCount_setBitRecord, ih, List.length_cons, Nat.add_comm]

/-- The slots of a frame with the parity seed 1, first to last (R52 to R54). -/
theorem frameSlots_eq (b : Byte) : (List.range 11).map (frameSlot true b) =
    [false, b.getLsbD 0, b.getLsbD 1, b.getLsbD 2, b.getLsbD 3, b.getLsbD 4, b.getLsbD 5, b.getLsbD 6, b.getLsbD 7,
      true ^^ b.getLsbD 0 ^^ b.getLsbD 1 ^^ b.getLsbD 2 ^^ b.getLsbD 3 ^^ b.getLsbD 4 ^^ b.getLsbD 5 ^^ b.getLsbD 6
        ^^ b.getLsbD 7,
      true] := by
  have hdata : (List.range 8).map (fun i => frameSlot true b (i + 1)) = (List.range 8).map b.getLsbD :=
    List.map_congr_left fun i hi => frameSlot_data true b (List.mem_range.mp hi)
  calc (List.range 11).map (frameSlot true b)
    _ = frameSlot true b 0 :: (List.range 8).map (fun i => frameSlot true b (i + 1))
          ++ [frameSlot true b 9, frameSlot true b 10] := rfl
    _ = _ := by rw [hdata, frameSlot_start, frameSlot_parity, frameSlot_stop]; rfl

/-- A SEND drops its byte, or some idle check is the first that succeeds and the frame is sent from there (R80 to R84). -/
theorem exec_send_cases {s : State} (hs : s.seq = .idle) (hN : 0 < s.cfg.nAttempts) (b : Byte) :
    exec (.send b) s = .next ((s.failChecks s.cfg.nAttempts).finish (some (.send .dropped)))
      ∨ ∃ j < s.cfg.nAttempts, ∃ x, FrameDone (s.frameStart j) b x
          ∧ exec (.send b) s = .next { x with result := some (.send .sent) } := by
  rcases firstCheck s with hf | ⟨j, hj, hf, hi⟩
  · exact .inl ((exec_eq_request _ _).trans (request_send_dropped hs hN b hf))
  · exact .inr ⟨j, hj, exec_send_sent hs b hj hf hi⟩

/-- Settles O31: a SEND that is not dropped has driven the slots of its frame only. -/
theorem sendDrivesElevenSlots : Obligations.SendDrivesElevenSlots := by
  unfold Obligations.SendDrivesElevenSlots
  refine ⟨fun b s t hs hwf hseed hexec hsent => ?_, fun s d => ?_⟩
  · rcases exec_send_cases hs (Config.wf_pos hwf) b with hdrop | ⟨j, -, x, hx, hx'⟩
    · obtain rfl := Host.Outcome.next.inj (hexec.symm.trans hdrop)
      exact absurd rfl hsent
    · obtain rfl := Host.Outcome.next.inj (hexec.symm.trans hx')
      refine ⟨sendRecord s j b, hx.trace_eq_sendRecord, ?_, ?_⟩
      · rw [← dataDriven_drives, drives_sendRecord, dataDriven_setBits, hseed, frameSlots_eq]
      · rw [← clockCount_drives, drives_sendRecord, clockCount_setBits, List.length_range]
  · exact (Bool.not_or ..).trans (congrArg (· && _) (Bool.not_not d))

theorem setBitRecord_exact {c : Config} (h : c.timingMode = .exact) (d t : Nat) (v : Bool) : setBitRecord c d t v =
    [⟨t, .datDrv (!v)⟩, ⟨t + c.tSettle1, .clkDrv true⟩, ⟨t + c.tSettle1 + c.tHold, .clkDrv false⟩] := by
  simp only [setBitRecord, pulseRecord, waitLength_exact h]

/-- Settles O32: the checks, the pulses and the phases of a pulse are all as long as their parameters. -/
theorem sendSlotTimesExact : Obligations.SendSlotTimesExact := by
  unfold Obligations.SendSlotTimesExact
  intro b s j T hs hex hj hf hT hi
  have htime : ∀ k, checkTime s.cfg s.draws s.now k = s.now + k * s.cfg.tRetry := checkTime_exact hex s.draws s.now
  obtain ⟨x, hx, hexec⟩ := exec_send_sent hs b hj (fun k hk => by rw [htime]; exact hf k hk) (by rw [htime, ← hT]; exact hi)
  refine ⟨_, sendRecord s j b, hexec, hx.trace_eq_sendRecord, ?_, ?_⟩
  · exact hx.now_eq_pulseStart.trans (by rw [htime, ← hT, pulseStart_exact hex])
  · simp only [drives_sendRecord, htime, ← hT, pulseStart_exact hex, setBitRecord_exact hex]

/-! ### RECV up to its verdict -/

/-- What RECV leaves when it comes to its verdict, as one state (R90, R93). -/
theorem RecvDone.eq_record {s u : State} (h : RecvDone s u) : u =
    { s with
      clkDrv := false
      datDrv := false
      datPrev := u.datPrev
      ie := true
      busy := false
      shreg := s.recvByte
      par := frameParity s.cfg.paritySeed s.recvByte
      bitn := 8
      ok := s.recvParityBit == frameParity s.cfg.paritySeed s.recvByte
      now := s.recvPulse 11
      trace := (recvRecord s).reverse ++ s.trace
      draws := s.draws + 33 } :=
  State.ext h.cfg h.clkDrv h.datDrv rfl h.ie h.busy h.hostTalking h.lastSent h.shreg h.par h.bitn h.tries h.ok h.seq h.req
    h.result h.events h.refused h.now h.host h.consumer h.trace h.draws

/-- The acknowledgement's pulse leaves the data line low in `dat_prev`, if it takes any time (R90, R35). -/
theorem RecvDone.datPrev_low {s u : State} (h : RecvDone s u) (hpos : 0 < s.cfg.tPulse) : u.datPrev = false :=
  h.datPrev (Nat.lt_of_lt_of_le hpos (le_pulseLength _ _))

/-- R91: the parity sample matches, and the byte is delivered. -/
theorem exec_recv_ok {s : State} (hs : s.seq = .idle) (hN : 0 < s.cfg.nAttempts)
    (hp : s.recvParityBit = frameParity s.cfg.paritySeed s.recvByte) :
    ∃ u, RecvDone s u ∧ exec .recv s = .next { u.emit s.recvByte with result := some (.rxOk s.recvByte) } := by
  obtain ⟨u, hu, hok, -⟩ := recv_spec hs hN
  have hidle : (u.emit s.recvByte).seq = .idle := hu.seq.trans hs
  refine ⟨u, hu, ?_⟩
  rw [exec_eq_request, hok (hu.ok.trans (beq_iff_eq.mpr hp)), hu.shreg, State.finish_of_idle hidle]

/-- Settles O37: the state RECV reaches, with the byte handed over. -/
theorem recvDeliversByte : Obligations.RecvDeliversByte := by
  unfold Obligations.RecvDeliversByte
  intro s hs hwf hp
  obtain ⟨u, hu, hexec⟩ := exec_recv_ok hs (Config.wf_pos hwf) hp
  refine ⟨_, hexec, ?_, hu.datPrev_low⟩
  have heq := hu.eq_record
  generalize u.datPrev = p at heq
  rw [heq, beq_iff_eq.mpr hp]
  rfl

/-! ### The end of a SEND -/

/-- How a SEND of `b` that starts in `s` has ended in `t`, with the status `st` (R97). -/
structure SendEnd (b : Byte) (s t : State) (st : SendStatus) : Prop where
  seq : t.seq = .idle
  result : t.result = some (.send st)
  events : t.events = s.events
  lastSent : st = .sent → t.lastSent = b
  now : s.cfg.timingMode = .exact → t.now ≤ s.now + s.cfg.nAttempts * s.cfg.tRetry + 11 * s.cfg.tPulse

/-- Every SEND ends, dropped after its last wait or sent after a frame that follows one of its checks (R97). -/
theorem exec_send_ends {s : State} (hs : s.seq = .idle) (hN : 0 < s.cfg.nAttempts) (b : Byte) :
    ∃ t st, exec (.send b) s = .next t ∧ SendEnd b s t st := by
  rcases exec_send_cases hs hN b with hdrop | ⟨j, hj, x, hx, hsent⟩
  · refine ⟨_, .dropped, hdrop, rfl, rfl, ?_, nofun, fun hex => ?_⟩
    · rw [failChecks_eq]
      exact State.elapse_events ..
    · have htime := checkTime_exact hex s.draws s.now s.cfg.nAttempts
      rw [failChecks_eq, State.finish_now, State.elapse_now]
      omega
  · refine ⟨_, .sent, hsent, ?_, rfl, ?_, fun _ => hx.lastSent, fun hex => ?_⟩
    · rw [hx.seq, State.frameStart_eq, hs]
    · rw [hx.events, State.frameStart_eq]
    · have hmul : j * s.cfg.tRetry ≤ s.cfg.nAttempts * s.cfg.tRetry := Nat.mul_le_mul_right _ (Nat.le_of_lt hj)
      rw [hx.now_eq_pulseStart, pulseStart_exact hex, checkTime_exact hex]
      omega

/-! ### A RECV whose parity fails -/

/-- R92: the parity sample does not match, and the SEND of `RESEND_REQ` ends RECV. -/
theorem exec_recv_bad {s : State} (hs : s.seq = .idle) (hN : 0 < s.cfg.nAttempts)
    (hp : s.recvParityBit ≠ frameParity s.cfg.paritySeed s.recvByte) :
    ∃ u v st, RecvDone s u ∧ exec (.send s.cfg.resendReq) u = .next v ∧ SendEnd s.cfg.resendReq u v st
      ∧ exec .recv s = .next { v with result := some (.rxParityError st) } := by
  obtain ⟨u, hu, -, hbad⟩ := recv_spec hs hN
  obtain ⟨v, st, hv, hend⟩ := exec_send_ends (hu.seq.trans hs) (hu.cfg ▸ hN) s.cfg.resendReq
  refine ⟨u, v, st, hu, hv, hend, ?_⟩
  rw [exec_eq_request] at hv ⊢
  rw [hbad (hu.ok.trans (beq_eq_false_iff_ne.mpr hp)) v st hv hend.result, State.finish_of_idle hend.seq]

/-- Settles O38: the state RECV reaches, and the SEND from it. -/
theorem recvParityFailureSendsResend : Obligations.RecvParityFailureSendsResend := by
  unfold Obligations.RecvParityFailureSendsResend
  intro s hs hwf hp
  obtain ⟨u, v, st, hu, hv, hend, hexec⟩ := exec_recv_bad hs (Config.wf_pos hwf) hp
  have heq := hu.eq_record
  rw [beq_eq_false_iff_ne.mpr hp] at heq
  exact ⟨u, v, st, heq, hu.datPrev_low, hv, hend.result, hend.events.trans hu.events, hend.lastSent, hexec⟩

/-- Settles O36: RECV takes eleven pulses to its verdict, and where the parity fails a SEND follows. -/
theorem sendAndRecvAlwaysEnd : Obligations.SendAndRecvAlwaysEnd := by
  unfold Obligations.SendAndRecvAlwaysEnd
  refine ⟨fun b s hs hwf => ?_, fun s hs hwf => ?_⟩
  · obtain ⟨t, st, ht, hend⟩ := exec_send_ends hs (Config.wf_pos hwf) b
    exact ⟨t, ht, hend.seq, ⟨st, hend.result⟩, hend.now⟩
  · have hpulses : s.cfg.timingMode = .exact → s.recvPulse 11 = s.now + 11 * s.cfg.tPulse := fun hex =>
      pulseStart_exact hex ..
    by_cases hp : s.recvParityBit = frameParity s.cfg.paritySeed s.recvByte
    · obtain ⟨u, hu, hexec⟩ := exec_recv_ok hs (Config.wf_pos hwf) hp
      refine ⟨_, hexec, hu.seq.trans hs, .inl ⟨_, rfl⟩, fun hex => ?_⟩
      have hnow := hu.now.trans (hpulses hex)
      exact hnow.trans_le (by omega)
    · obtain ⟨u, v, st, hu, -, hend, hexec⟩ := exec_recv_bad hs (Config.wf_pos hwf) hp
      refine ⟨_, hexec, hend.seq, .inr ⟨st, rfl⟩, fun hex => ?_⟩
      have hnow := hend.now (hu.cfg ▸ hex)
      rw [hu.cfg, hu.now, hpulses hex] at hnow
      exact hnow.trans (by omega)

/-! ### What RECV looks at -/

section
variable {s : State} {h : List HostDrive}
  (hline : ∀ n, 1 ≤ n → n ≤ 9 → ({ s with host := h } : State).datLineAt (s.recvPulse n) = s.datLineAt (s.recvPulse n))
include hline

/-- The byte is made of the data line's levels at its eight sample instants (R94). -/
theorem recvByte_withHost : ({ s with host := h } : State).recvByte = s.recvByte := by
  apply BitVec.eq_of_getLsbD_eq
  intro i hi
  rw [recvByte_getLsbD _ hi, recvByte_getLsbD _ hi]
  exact hline (i + 1) (by omega) (by omega)

/-- RECV records the data line's levels at its nine sample instants and no other (R94). -/
theorem recvRecord_withHost : recvRecord { s with host := h } = recvRecord s := by
  have hsamples : ∀ i ∈ List.range 9,
      (⟨s.recvPulse (i + 1), .sampleDat (({ s with host := h } : State).datLineAt (s.recvPulse (i + 1)))⟩ : Stamped)
          :: pulseRecord s.cfg (s.draws + 3 * (i + 1)) (s.recvPulse (i + 1)) =
        ⟨s.recvPulse (i + 1), .sampleDat (s.datLineAt (s.recvPulse (i + 1)))⟩
          :: pulseRecord s.cfg (s.draws + 3 * (i + 1)) (s.recvPulse (i + 1)) := fun i hi => by
    rw [hline (i + 1) (by omega) (Nat.succ_le_of_lt (List.mem_range.mp hi))]
  exact congrArg (fun l => _ ++ l ++ _ ++ _) (List.flatMap_congr hsamples)

end

/-- Settles O41: the whole next state is a function of what the nine samples give, and those agree. -/
theorem recvLooksAtNineInstantsOnly : Obligations.RecvLooksAtNineInstantsOnly := by
  unfold Obligations.RecvLooksAtNineInstantsOnly
  intro s h hs hwf hp hdat
  have hline : ∀ n, 1 ≤ n → n ≤ 9 →
      ({ s with host := h } : State).datLineAt (s.recvPulse n) = s.datLineAt (s.recvPulse n) := fun n h1 h9 =>
    congrArg (fun d => !(s.datDrv || d)) (hdat n h1 h9)
  have hbyte := recvByte_withHost hline
  have hpar : ({ s with host := h } : State).recvParityBit = s.recvParityBit := hline 9 (by decide) (by decide)
  obtain ⟨t, hexec, ht, -⟩ := recvDeliversByte s hs hwf hp
  obtain ⟨u, hexec', hu, -⟩ := recvDeliversByte { s with host := h } hs hwf (by rw [hpar, hbyte]; exact hp)
  refine ⟨t, u, hexec, hexec', ?_⟩
  rw [hbyte, recvRecord_withHost hline] at hu
  generalize u.datPrev = p at hu ⊢
  rw [hu, ht]
  rfl

/-! ### The waveform of a RECV -/

/-- Up to its verdict RECV drives ten pulses, the acknowledgement and the release, and nothing else (R90, R93). -/
theorem drives_recvRecord (s : State) : drives (recvRecord s) =
    (List.range 10).flatMap (fun n => pulseRecord s.cfg (s.draws + 3 * n) (s.recvPulse n))
      ++ setBitRecord s.cfg (s.draws + 30) (s.recvPulse 10) false ++ [⟨s.recvPulse 11, .datDrv false⟩] := by
  rw [recvRecord, drives_append, drives_append, drives_append, drives_flatMap]
  rfl

theorem pulseRecord_exact {c : Config} (h : c.timingMode = .exact) (d t : Nat) : pulseRecord c d t =
    [⟨t + c.tSettle1, .clkDrv true⟩, ⟨t + c.tSettle1 + c.tHold, .clkDrv false⟩] := by
  simp only [pulseRecord, waitLength_exact h]

/-- Settles O42: the pulses and their phases are all as long as their parameters. -/
theorem recvTimesExact : Obligations.RecvTimesExact := by
  unfold Obligations.RecvTimesExact
  intro s hs hwf hex
  have htime : ∀ n, s.recvPulse n = s.now + n * s.cfg.tPulse := pulseStart_exact hex s.draws s.now
  refine ⟨fun i hi => by rw [recvByte_getLsbD s hi, htime], by rw [State.recvParityBit, htime], fun hp => ?_⟩
  obtain ⟨u, hu, hexec⟩ := exec_recv_ok hs (Config.wf_pos hwf) hp
  refine ⟨_, recvRecord s, hexec, hu.trace, hu.now.trans (htime 11), ?_⟩
  simp only [drives_recvRecord, htime, pulseRecord_exact hex, setBitRecord_exact hex]
  rw [List.append_assoc]
  rfl

end Sys2Proof.Machine

/-! PROOFS. The family of exceptions (60_exceptions.md): no step stops, the receive interrupt over one microsecond and over
many, and the outcome codes. -/

namespace Sys2Proof.Machine

/-! ### No exception, no trap -/

/-- From every state the step goes on to a next state, whatever it serves (R101). -/
theorem step_total (s : State) : ∃ t, step s = .next t := by
  cases hreq : s.req with
  | some w =>
    by_cases hd : ∃ i, decode w = .instr i
    · obtain ⟨i, hi⟩ := hd
      rw [step_request hreq hi]
      exact exec_total i s.takeRequest
    · exact ⟨_, step_refuses_undecoded hreq (not_exists.mp hd)⟩
  | none =>
    cases hs : s.seq with
    | run op k => exact ⟨_, step_running hreq hs⟩
    | idle => exact ⟨_, step_consumer hreq hs⟩

/-- Settles O8: the step and every instruction are total. -/
theorem noStepEverStops : Obligations.NoStepEverStops := by
  unfold Obligations.NoStepEverStops
  exact ⟨step_total, exec_total⟩

/-! ### One microsecond -/

/-- The trigger by the drives of a line (R104), `d` being whether either end pulls it low. -/
theorem triggered_edgeFall_not (p d : Bool) : triggered .edgeFall p (!d) = (p && d) := by
  rw [triggered, Bool.not_not]

theorem triggered_levelLow_not (p d : Bool) : triggered .levelLow p (!d) = d := by
  rw [triggered, Bool.not_not]

/-- Settles O10: with nothing to do the step is a tick, and its trigger is read off the data line's two drives. -/
theorem microsecondEvaluatesInterrupt : Obligations.MicrosecondEvaluatesInterrupt := by
  unfold Obligations.MicrosecondEvaluatesInterrupt
  intro s hreq hs hc
  rw [step_consumer hreq hs, State.consumerStep_nil hc, State.tick, State.interrupt, State.datLine]
  cases s.cfg.irqTrigger with
  | edgeFall => rw [triggered_edgeFall_not]
  | levelLow => rw [triggered_levelLow_not]

/-! ### Many microseconds -/

/-- The `n` offsets that the closed form of time looks at are the microseconds of the span. -/
theorem State.any_trigAt_iff (s : State) (n : Nat) :
    (List.range n).any (fun i => s.trigAt (s.now + i)) = true ↔
      ∃ u, s.now ≤ u ∧ u < s.now + n ∧ s.trigAt u = true := by
  rw [List.any_eq_true]
  constructor
  · rintro ⟨i, hi, htrig⟩
    exact ⟨s.now + i, Nat.le_add_right .., Nat.add_lt_add_left (List.mem_range.mp hi) _, htrig⟩
  · rintro ⟨u, hle, hlt, htrig⟩
    refine ⟨u - s.now, List.mem_range.mpr (Nat.sub_lt_left_of_lt_add hle hlt), ?_⟩
    rwa [Nat.add_sub_of_le hle]

/-- Events coalesce in the one flag (R104): it is set after `n` microseconds if it was set before or one of them sets it. -/
theorem State.elapse_hostTalking_iff (s : State) (n : Nat) :
    (s.elapse n).hostTalking = true ↔
      s.hostTalking = true ∨ (s.ie = true ∧ ∃ u, s.now ≤ u ∧ u < s.now + n ∧ s.trigAt u = true) := by
  rw [State.elapse_hostTalking, Bool.or_eq_true, Bool.and_eq_true, State.any_trigAt_iff]

/-- After some time `dat_prev` is the data line's level at the last microsecond that passed (R35). -/
theorem State.elapse_datPrev_of_pos (s : State) {n : Nat} (hn : 0 < n) :
    (s.elapse n).datPrev = s.datLineAt (s.now + n - 1) := by
  rw [State.elapse_datPrev, State.datPrevAt, if_neg (by omega)]

/-- Settles O11: the step is the passing of `n` microseconds on the state whose action is taken. -/
theorem consumerDelayCoalescesEvents : Obligations.ConsumerDelayCoalescesEvents := by
  unfold Obligations.ConsumerDelayCoalescesEvents
  intro s n rest hreq hs hc
  have hstep : step s = .next (({ s with consumer := rest } : State).elapse n) := by
    rw [step_consumer hreq hs, State.consumerStep_cons hc, actConsumer]
  refine ⟨_, hstep, ?_, fun hn => State.elapse_datPrev_of_pos { s with consumer := rest } hn, ?_,
    State.elapse_hostTalking_iff { s with consumer := rest } n⟩
  · rw [State.elapse_eq]
  · rintro rfl
    rfl

/-! ### Outcome codes -/

/-- Settles O27: the codes as R102 numbers them. -/
theorem outcomeCodesAsNumbered : Obligations.OutcomeCodesAsNumbered := by
  unfold Obligations.OutcomeCodesAsNumbered
  exact ⟨rfl, rfl, fun _ => rfl, fun _ => rfl, rfl⟩

end Sys2Proof.Machine

/-! PROOFS. The family of reset and hazards (70_reset_and_hazards.md): the invariant after reset, the boot sequence, the
device's own drive as a trigger, and the runs of SEND and RECV that R127 and R129 to R131 single out. -/

namespace Sys2Proof.Machine

/-! ### Reset and boot -/

/-- Settles O45: the reset state's fields, with no operation running and nothing recorded. -/
theorem resetMeetsInvariant : Obligations.ResetMeetsInvariant where
  cfg := rfl
  host := rfl
  seq := trivial
  clk := rfl
  busy := rfl
  masked := nofun
  bitnCount := nofun
  bitn := Nat.zero_le _
  tries := Nat.zero_le _
  triesLeft := nofun
  trace := trivial
  events := nofun

/-- Settles O25: SETIE enables and RELDAT releases the data line; the clock and the indicator are as the invariant has them
between operations. -/
theorem bootSequenceRestoresIdleBus : Obligations.BootSequenceRestoresIdleBus := by
  unfold Obligations.BootSequenceRestoresIdleBus
  intro s hinv hs
  have hphase : s.seq.phase = .between := by rw [hs]; rfl
  have hclk : s.clkDrv = false := by rw [hinv.clk, hphase]; rfl
  have hbusy : s.busy = false := by rw [hinv.busy, hphase]; rfl
  exact ⟨_, _, exec_setie hs true, exec_reldat (s := { s.writeIe true with result := none }) hs, rfl, rfl, hclk, hbusy, hs,
    rfl, rfl, rfl⟩

/-! ### A data line that falls while the interrupt is enabled -/

/-- A falling edge is also a low level (R104). -/
theorem triggered_fall (tr : IrqTrigger) : triggered tr true false = true := by
  cases tr <;> rfl

/-- A data line that is low after a microsecond in which it was high sets the flag, whatever the trigger, at the end of the
first microsecond that passes (R104). -/
theorem State.elapse_hostTalking_of_fall {s : State} (hie : s.ie = true) (hprev : s.datPrev = true)
    (hline : s.datLine = false) {n : Nat} (hn : 0 < n) : (s.elapse n).hostTalking = true := by
  have htrig : s.trigAt s.now = true := by
    rw [State.trigAt, State.datPrevAt, if_pos le_rfl, State.datLineAt_now, hprev, hline, triggered_fall]
  exact (State.elapse_hostTalking_iff s n).mpr (.inr ⟨hie, s.now, le_rfl, Nat.lt_add_of_pos_right hn, htrig⟩)

/-- Settles O22: the device's own drive makes the line low, and the pulse takes at least one microsecond. -/
theorem setbitZeroTriggersItself : Obligations.SetbitZeroTriggersItself := by
  unfold Obligations.SetbitZeroTriggersItself
  intro s hs hie hprev hpos
  have hpulse : 0 < pulseLength s.cfg s.draws := Nat.lt_of_lt_of_le hpos (le_pulseLength s.cfg s.draws)
  refine ⟨_, exec_setbit hs false, ?_⟩
  exact (pulse_hostTalking _).trans (State.elapse_hostTalking_of_fall (s := s.driveDat true) hie hprev rfl hpulse)

/-- The record, newest first, of the idle checks holds no drive. -/
theorem drives_checksRecord_reverse (s : State) (n : Nat) : drives (checksRecord s n).reverse = [] := by
  rw [drives, List.filter_reverse, ← drives, drives_checksRecord, List.reverse_nil]

/-- Settles O35: every check finds the data line low, and the first wait sees it fall. -/
theorem heldDataLineDropsByteAndSetsFlag : Obligations.HeldDataLineDropsByteAndSetsFlag := by
  unfold Obligations.HeldDataLineDropsByteAndSetsFlag
  intro b s hs hN hretry hie hprev hheld
  have hlow : ∀ u, s.now ≤ u → s.datLineAt u = false := fun u hu => by rw [State.datLineAt, hheld u hu, Bool.or_true]; rfl
  have hbusy : ∀ k < s.cfg.nAttempts, s.idleAt (checkTime s.cfg s.draws s.now k) = false := fun k _ => by
    rw [State.idleAt, hlow _ (le_checkTime ..), Bool.and_false]
  obtain ⟨w, hw, -, hexec⟩ := sendDropsOnBusyBus b s hs hN hbusy
  have hpos : 0 < w := Nat.lt_of_lt_of_le (Nat.mul_pos hN hretry) hw
  have hflag : (s.elapse w).hostTalking = true := State.elapse_hostTalking_of_fall hie hprev (hlow s.now le_rfl) hpos
  refine ⟨_, hexec, rfl, hflag, s.elapse_lastSent w, (s.elapse_ie w).trans hie, s.elapse_busy w, ?_⟩
  rw [drives_append, drives_checksRecord_reverse, List.nil_append]

/-! ### Frames that start at once -/

/-- With both of the device's drives released, the bus is idle where the bus host holds neither line (R16). -/
theorem State.idleAt_now_of_released {s t : State} (hhost : t.host = s.host) (hclk : t.clkDrv = false)
    (hdat : t.datDrv = false) (hhclk : s.hostClkDrv t.now = false) (hhdat : s.hostDatDrv t.now = false) :
    t.idleAt t.now = true := by
  rw [State.idleAt, State.clkLineAt, State.datLineAt, State.hostClkDrv_congr hhost, State.hostDatDrv_congr hhost, hclk,
    hdat, hhclk, hhdat]
  rfl

/-- Settles O34: the first frame releases both lines as it ends, so the second SEND's first check succeeds. -/
theorem backToBackFramesLeaveNoGap : Obligations.BackToBackFramesLeaveNoGap := by
  unfold Obligations.BackToBackFramesLeaveNoGap
  intro b c s hs hN hi hclk hdat
  obtain ⟨x, hx, hexec⟩ := exec_send_idle hs hN hi b
  rw [State.frameStart_zero_of_idle hi] at hx
  have hcfg : x.cfg = s.cfg := hx.cfg
  have hdraws : x.draws = s.draws + 33 := hx.draws
  have hnow : x.now = pulseStart s.cfg s.draws s.now 11 := hx.now
  rw [← hnow] at hclk hdat
  have hidle : x.idleAt x.now = true := State.idleAt_now_of_released (s := s) hx.host hx.clkDrv hx.datDrv hclk hdat
  have hN' : 0 < x.cfg.nAttempts := by rwa [hcfg]
  obtain ⟨y, hy, hexec'⟩ := exec_send_idle (s := x.finish (some (.send .sent))) rfl hN' hidle c
  rw [State.frameStart_zero_of_idle (s := x.finish (some (.send .sent))) hidle] at hy
  have hnow' : y.now = pulseStart x.cfg x.draws x.now 11 := hy.now
  rw [hcfg, hdraws] at hnow'
  exact ⟨_, _, hexec, hexec', rfl, rfl, hy.lastSent, hnow, hnow', hy.tries⟩

/-- Settles O39: RECV comes to its verdict with both lines released, so the resend request's first check succeeds and its
frame is sent. -/
theorem parityFailureLeavesResendAsLastSent : Obligations.ParityFailureLeavesResendAsLastSent := by
  unfold Obligations.ParityFailureLeavesResendAsLastSent
  intro s hs hwf hp hclk hdat
  obtain ⟨u, v, st, hu, hv, hend, hexec⟩ := exec_recv_bad hs (Config.wf_pos hwf) hp
  rw [← hu.now] at hclk hdat
  have hidle : u.idleAt u.now = true := State.idleAt_now_of_released hu.host hu.clkDrv hu.datDrv hclk hdat
  obtain ⟨x, hx, hsent⟩ := exec_send_idle (hu.seq.trans hs) (hu.cfg ▸ Config.wf_pos hwf) hidle s.cfg.resendReq
  rw [State.frameStart_zero_of_idle hidle] at hx
  obtain rfl := Host.Outcome.next.inj (hv.symm.trans hsent)
  obtain rfl : SendStatus.sent = st := Result.send.inj (Option.some.inj hend.result)
  exact ⟨_, hexec, rfl, hx.lastSent, hend.events.trans hu.events, hx.ie, hx.busy, hx.hostTalking.trans hu.hostTalking⟩

/-! ### A RECV that nobody answers -/

/-- A data line that stays high is received as eight ones (R94). -/
theorem recvByte_of_high {s : State} (hhigh : ∀ u, s.datLineAt u = true) : s.recvByte = 0xFF#8 := by
  apply BitVec.eq_of_getLsbD_eq
  intro i hi
  rw [recvByte_getLsbD s hi, hhigh]
  revert i
  decide

/-- Settles O40: the nine samples are all 1, and the odd parity of 0xFF is 1. -/
theorem spuriousRecvDeliversFF : Obligations.SpuriousRecvDeliversFF := by
  unfold Obligations.SpuriousRecvDeliversFF
  intro s hs hwf hseed hdat hhost
  have hhigh : ∀ u, s.datLineAt u = true := fun u => by rw [State.datLineAt, hdat, hhost]; rfl
  have hbyte := recvByte_of_high hhigh
  have hp : s.recvParityBit = frameParity s.cfg.paritySeed s.recvByte := by
    rw [State.recvParityBit, hhigh, hseed, hbyte]
    decide
  obtain ⟨u, hu, hexec⟩ := exec_recv_ok hs (Config.wf_pos hwf) hp
  rw [hbyte] at hexec
  exact ⟨_, hexec, rfl, congrArg (List.cons _) hu.events⟩

end Sys2Proof.Machine
